-- ==== Sys2Proof/Word.lean ====
section
/-! DEFINITION. Word.lean: the unit of access, the 8-bit byte (20_memory.md R52), and the byte sequences that
requests and responses carry (10_state.md R27 to R30). -/
namespace Sys2Proof

/-- The unit of access (R52). -/
abbrev Byte := BitVec 8

/-- A finite byte sequence `B`, offsets 0 to `len(B) - 1` (R50, R51); its length is any natural (00_scope.md R12). -/
abbrev Bytes := List Byte

end Sys2Proof
end

