-- ==== Sys2Proof/Machine/BitField.lean ====
section
/-! DEFINITION. Machine/BitField.lean: the fixed-width bit-field unpacker/packer (40_bitfield.md R100 to R109), the
internal sub-block both units are built on. It has no state and no host-visible operation (00_scope.md R4). -/
namespace Sys2Proof.Machine

/-- A field descriptor `(name, lo, w)` (R100). -/
structure FieldDesc (ν : Type) where
  name : ν
  lo : Nat
  width : Nat
deriving DecidableEq, Repr

/-- A layout: a finite list of descriptors (R100). -/
abbrev Layout (ν : Type) := List (FieldDesc ν)

/-- `hi = lo + w - 1` (R100). -/
def FieldDesc.hi {ν : Type} (f : FieldDesc ν) : Nat := f.lo + f.width - 1

/-- No bit position lies in both fields. -/
def FieldDesc.disjoint {ν : Type} (f g : FieldDesc ν) : Bool := f.hi < g.lo || g.hi < f.lo

/-- A layout is well-formed over N bits (R100): every `w ≥ 1` and `hi < N`, no two descriptors share a bit position. -/
abbrev Layout.WellFormed {ν : Type} (L : Layout ν) (N : Nat) : Prop :=
  (∀ f ∈ L, 1 ≤ f.width ∧ f.hi < N) ∧ L.Pairwise (fun f g => f.disjoint g = true)

/-- `trunc_w(v) = v mod 2^w` (00_scope.md R17). -/
def trunc (w v : Nat) : Nat := v % 2 ^ w

/-- `mask_w = 2^w - 1` (00_scope.md R17). -/
def maskBits (w : Nat) : Nat := 2 ^ w - 1

/-- `covered(L)`: the set of bits that belong to some field (R100). -/
def covered {ν : Type} (L : Layout ν) : Nat :=
  L.foldr (fun f acc => (maskBits f.width <<< f.lo) ||| acc) 0

/-- `UNPACK(word, f) = word[f.hi : f.lo]` (R101), an unsigned value of the field's width. -/
def unpack {ν : Type} {N : Nat} (word : BitVec N) (f : FieldDesc ν) : BitVec f.width :=
  word.extractLsb' f.lo f.width

/-- What `PACK` puts in for one field before the shift (R102): `trunc_w(v)` if the field is masked, else `v`. A value
that fits is its own truncation, so the mask selector is consulted only where it matters: a run on in-range values can
be evaluated although `CSP_MASK_SET` is open (`packInput_eq` in Laws says this is R102's `if`). -/
def packInput (masked : Bool) (w v : Nat) : Nat :=
  if 2 ^ w ≤ v ∧ masked = true then trunc w v else v

/-- The bitwise OR over the fields of a layout, each shifted to its place: `PACK` before `trunc_N` (R102). -/
def packOr {ν : Type} (L : Layout ν) (v : ν → Nat) (m : ν → Bool) : Nat :=
  L.foldr (fun f acc => (packInput (m f.name) f.width (v f.name) <<< f.lo) ||| acc) 0

/-- `PACK(L, N, v, m)` (R102): the value map `v` gives unbounded naturals, `m` says which fields are masked. -/
def pack {ν : Type} (L : Layout ν) (N : Nat) (v : ν → Nat) (m : ν → Bool) : BitVec N :=
  BitVec.ofNat N (packOr L v m)

/-- `PACK_MASKED` (R103). -/
def packMasked {ν : Type} (L : Layout ν) (N : Nat) (v : ν → Nat) : BitVec N := pack L N v (fun _ => true)

/-- `PACK_UNMASKED` (R104). -/
def packUnmasked {ν : Type} (L : Layout ν) (N : Nat) (v : ν → Nat) : BitVec N := pack L N v (fun _ => false)

/-- `BYTES_OF(v, n)` (R109): byte j is `v[8n-1-8j : 8n-8-8j]`, the most significant byte first. -/
def bytesOf (n : Nat) (v : BitVec (8 * n)) : Bytes :=
  (List.range n).map fun j => v.extractLsb' (8 * (n - 1 - j)) 8

/-- `B[0] ++ B[1] ++ …` read as one natural, the first byte most significant (20_memory.md R53). -/
def bigEndian (B : Bytes) : Nat := B.foldl (fun acc b => acc * 256 + b.toNat) 0

/-- `MemRead(i, n)` (00_scope.md R17): the big-endian read of n bytes of the input buffer at offset i. The spec defines
it only when `i + n ≤ len(B)`, and both parsers check that first (R53); no meaning reads it elsewhere. -/
def memRead (B : Bytes) (i n : Nat) : BitVec (8 * n) := BitVec.ofNat (8 * n) (bigEndian ((B.drop i).take n))

/-- `MemWrite(i, n, v)` (00_scope.md R17): the bytes of the output buffer at offsets i to i+n-1 become the big-endian
bytes of `v`. A fresh output buffer is empty and a write at its end extends it (20_memory.md R51). -/
def memWrite (out : Bytes) (i n : Nat) (v : BitVec (8 * n)) : Bytes :=
  out.take i ++ bytesOf n v ++ out.drop (i + n)

/-- Bit `k` in stream numbering (00_scope.md R15), for cross-reference only: stream bit k of an n-byte header H is
`H[8n-1-k]`, so stream bit 0 is the most significant bit of byte 0. -/
def streamBit {n : Nat} (H : BitVec (8 * n)) (k : Nat) : Bool := H.getLsbD (8 * n - 1 - k)

end Sys2Proof.Machine
end

