-- ==== Sys2Proof/Config.lean ====
section
/-! DEFINITION. Config.lean: the build parameters of the block (00_scope.md R10 to R12). `LATENCY` (R13) is time only
and has no counterpart here (assumption log 5); the delay of `req_ready` after a reset is a free value. -/
namespace Sys2Proof

/-- `SER_FIELD_W` (R10): the width in bits of each numeric field input of the two serializers. -/
def Config.serFieldW : Nat := 16

/-- `LEN_W` (R12): the width of a buffer length at the ports of a realisation; the model's lengths are unbounded. -/
def Config.lenW : Nat := 32

/-- `CSP_MASK_SET` (R11), OPEN: the block was built with one of the 64 values and nothing says which. It has no body,
so no proof can learn it (assumption log 3). `State.reset` holds it; the meanings read the State's field. -/
opaque Config.cspMaskSet : BitVec 6

/-- For how many steps `req_ready` stays 0 after the n-th reset: unspecified, "a model admits any finite delay"
(10_state.md R39). It has no body, so every delay is admitted, another one after each reset (assumption log 15). -/
opaque Config.reqReadyDelay : Nat → Nat

end Sys2Proof
end

