-- ==== Sys2Proof/Syntax.lean ====
section
/-! DEFINITION. Syntax.lean: the requests of the block. One constructor of `Instr` for each row of
spec/opcode_table.json (30_encoding.md R70), with the operand record the row's `op` selects (10_state.md R26 to R29),
and the request record `{op, operands}` as it stands on the request channel. -/
namespace Sys2Proof

/-- 10_state.md R33. -/
inductive PacketType where
  | telemetry
  | telecommand
deriving DecidableEq, Repr

/-- 10_state.md R34. -/
inductive SequenceFlags where
  | continuation
  | firstSegment
  | lastSegment
  | unsegmented
deriving DecidableEq, Repr

/-- `ParseIn` (10_state.md R27): one buffer of any length, zero included. -/
structure ParseIn where
  buf : Bytes
deriving DecidableEq, Repr

/-- `SppSerIn` (10_state.md R28). The numeric fields are naturals of any size, as R10 allows ("every serializer rule is
stated for any natural value"); `WellFormed` says which a realisation can carry. -/
structure SppSerIn where
  version : Nat
  packetType : PacketType
  secondaryHeaderFlag : Nat
  apid : Nat
  sequenceFlags : SequenceFlags
  sequenceCount : Nat
  dataLength : Nat
  dataField : Bytes
deriving DecidableEq, Repr

/-- `CspSerIn` (10_state.md R29). -/
structure CspSerIn where
  priority : Nat
  source : Nat
  destination : Nat
  destinationPort : Nat
  sourcePort : Nat
  reserved : Nat
  hmac : Bool
  xtea : Bool
  rdp : Bool
  crc : Bool
  data : Bytes
deriving DecidableEq, Repr

/-- The four operations of the block (00_scope.md R4), each with its operand record (10_state.md R26). -/
inductive Instr where
  | sppParse (inp : ParseIn)
  | sppSerialize (inp : SppSerIn)
  | cspParse (inp : ParseIn)
  | cspSerialize (inp : CspSerIn)
deriving DecidableEq, Repr

/-- A request `{op, operands}` as the request channel carries it (10_state.md R26, 30_encoding.md R71): the 2-bit
operation select and the bytes of the operand record. DESIGN CHOICE: R40 leaves open how a record maps onto signals;
Decode.lean fixes the bytes (assumption log 1). -/
structure Request where
  op : BitVec 2
  operands : Bytes
deriving DecidableEq, Repr

end Sys2Proof
end

