-- ==== Sys2Proof/Machine/Operands.lean ====
section
/-! DEFINITION. Machine/Operands.lean: the enum and Boolean conversions (40_bitfield.md R110) and the byte forms of the
operand records' fields. The block has no register or immediate operand (30_encoding.md R71): an operand is a field of a
record. -/
namespace Sys2Proof.Machine

/-- `toPacketType` (R110, 30_encoding.md R76). -/
def toPacketType (b : BitVec 1) : PacketType := if b = 0#1 then .telemetry else .telecommand

/-- `fromPacketType` (R110). -/
def fromPacketType : PacketType → BitVec 1
  | .telemetry => 0#1
  | .telecommand => 1#1

/-- `toSequenceFlags` (R110, 30_encoding.md R77): the variant at index b of the listing. -/
def toSequenceFlags (b : BitVec 2) : SequenceFlags :=
  if b = 0b00#2 then .continuation
  else if b = 0b01#2 then .firstSegment
  else if b = 0b10#2 then .lastSegment
  else .unsegmented

/-- `fromSequenceFlags` (R110): the index in the listing. -/
def fromSequenceFlags : SequenceFlags → BitVec 2
  | .continuation => 0b00#2
  | .firstSegment => 0b01#2
  | .lastSegment => 0b10#2
  | .unsegmented => 0b11#2

/-- `toBool` (R110, 30_encoding.md R80). -/
def toBool (b : BitVec 1) : Bool := b == 1#1

/-- `fromBool` (R110). -/
def fromBool (t : Bool) : BitVec 1 := if t then 1#1 else 0#1

/-- A numeric input from the two bytes of its `SER_FIELD_W` = 16 bits, big-endian like every multi-byte value of the
spec (20_memory.md R57). DESIGN CHOICE of the operand record's byte form (assumption log 1). -/
def numFromBytes (hi lo : Byte) : Nat := hi.toNat * 256 + lo.toNat

/-- The high byte of a numeric input's two. -/
def numHiByte (v : Nat) : Byte := BitVec.ofNat 8 (v / 256)

/-- The low byte of a numeric input's two. -/
def numLoByte (v : Nat) : Byte := BitVec.ofNat 8 v

/-- A 1-bit input in bit 0 of its byte; the byte's other bits are carried by no signal (00_scope.md R10: "exactly their
field width"; assumption log 2). -/
def bitFromByte (b : Byte) : BitVec 1 := b.extractLsb' 0 1

/-- A 2-bit input in bits 1 to 0 of its byte (assumption log 2). -/
def pairFromByte (b : Byte) : BitVec 2 := b.extractLsb' 0 2

end Sys2Proof.Machine
end

