-- ==== Sys2Proof/WellFormed.lean ====
section
/-! DEFINITION. WellFormed.lean: which requests a realisation with `SER_FIELD_W`-bit numeric inputs can carry
(00_scope.md R10, 93_implementation_defined.md A4). The enum and Boolean inputs have no out-of-range value (10_state.md
R29, R33, R34), and byte sequences have any length (R27 to R29). -/
namespace Sys2Proof

/-- A numeric input fits the `SER_FIELD_W` bits of its port (R10). -/
def fitsSerField (v : Nat) : Bool := v < 2 ^ Config.serFieldW

/-- Every numeric field of the record fits its port (10_state.md R28). -/
def SppSerIn.fits (r : SppSerIn) : Bool :=
  fitsSerField r.version && fitsSerField r.secondaryHeaderFlag && fitsSerField r.apid &&
  fitsSerField r.sequenceCount && fitsSerField r.dataLength

/-- Every numeric field of the record fits its port (10_state.md R29). -/
def CspSerIn.fits (r : CspSerIn) : Bool :=
  fitsSerField r.priority && fitsSerField r.source && fitsSerField r.destination &&
  fitsSerField r.destinationPort && fitsSerField r.sourcePort && fitsSerField r.reserved

/-- The requests a realisation can be presented with. -/
def Instr.wf : Instr → Bool
  | .sppParse _ => true
  | .sppSerialize r => r.fits
  | .cspParse _ => true
  | .cspSerialize r => r.fits

/-- `Instr.wf`, as a decidable proposition. -/
abbrev WellFormed (i : Instr) : Prop := i.wf = true

end Sys2Proof
end

