-- ==== Sys2Proof/Decode.lean ====
section
/-! DEFINITION. Decode.lean: from a request `{op, operands}` as the channel carries it to the operation and its operand
record, and back. `op` is decoded as 30_encoding.md R70 says; every `op` is defined (R72). The bytes of an operand record
are the model's DESIGN CHOICE (assumption logs 1 and 2): its fields in the order of 10_state.md R28 and R29, a numeric
field as the two big-endian bytes of its `SER_FIELD_W` = 16 bits, an enum or Boolean field as one byte, and the record's
byte sequence as the rest. -/
namespace Sys2Proof

open Machine

/-- `op[1]` (30_encoding.md R70). -/
inductive PacketFormat where
  | spp
  | csp
deriving DecidableEq, Repr

/-- `op[0]` (30_encoding.md R70). -/
inductive Direction where
  | parse
  | serialize
deriving DecidableEq, Repr

/-- `op[1]` chooses the format: 0 is SPP, 1 is CSP (R70). -/
def opFormat (op : BitVec 2) : PacketFormat := if op.getLsbD 1 then .csp else .spp

/-- `op[0]` chooses the direction: 0 is parse, 1 is serialize (R70). -/
def opDirection (op : BitVec 2) : Direction := if op.getLsbD 0 then .serialize else .parse

/-- Why a request's operand bytes are no operand record (assumption log 10). -/
inductive DecodeError where
  /-- The bytes of an `SppSerIn` end before its 12 fixed bytes do. -/
  | sppSerInCutShort
  /-- The bytes of a `CspSerIn` end before its 16 fixed bytes do. -/
  | cspSerInCutShort
deriving DecidableEq, Repr

/-- The `SppSerIn` record (10_state.md R28) from its bytes. -/
def decodeSppSerIn : Bytes → Except DecodeError SppSerIn
  | v1 :: v0 :: pt :: s1 :: s0 :: a1 :: a0 :: sf :: c1 :: c0 :: l1 :: l0 :: rest =>
    .ok { version := numFromBytes v1 v0
          packetType := toPacketType (bitFromByte pt)
          secondaryHeaderFlag := numFromBytes s1 s0
          apid := numFromBytes a1 a0
          sequenceFlags := toSequenceFlags (pairFromByte sf)
          sequenceCount := numFromBytes c1 c0
          dataLength := numFromBytes l1 l0
          dataField := rest }
  | _ => .error .sppSerInCutShort

/-- The `CspSerIn` record (10_state.md R29) from its bytes. -/
def decodeCspSerIn : Bytes → Except DecodeError CspSerIn
  | p1 :: p0 :: s1 :: s0 :: d1 :: d0 :: dp1 :: dp0 :: sp1 :: sp0 :: r1 :: r0 :: h :: x :: r :: c :: rest =>
    .ok { priority := numFromBytes p1 p0
          source := numFromBytes s1 s0
          destination := numFromBytes d1 d0
          destinationPort := numFromBytes dp1 dp0
          sourcePort := numFromBytes sp1 sp0
          reserved := numFromBytes r1 r0
          hmac := toBool (bitFromByte h)
          xtea := toBool (bitFromByte x)
          rdp := toBool (bitFromByte r)
          crc := toBool (bitFromByte c)
          data := rest }
  | _ => .error .cspSerInCutShort

/-- The operation a request asks for (30_encoding.md R70, R71). A `ParseIn` is its buffer and nothing else (R27). -/
def decode (r : Request) : Except DecodeError Instr :=
  match opFormat r.op, opDirection r.op with
  | .spp, .parse => .ok (.sppParse { buf := r.operands })
  | .spp, .serialize => (decodeSppSerIn r.operands).map .sppSerialize
  | .csp, .parse => .ok (.cspParse { buf := r.operands })
  | .csp, .serialize => (decodeCspSerIn r.operands).map .cspSerialize

/-- The bytes of an `SppSerIn` record. -/
def encodeSppSerIn (i : SppSerIn) : Bytes :=
  [numHiByte i.version, numLoByte i.version, (fromPacketType i.packetType).setWidth 8,
   numHiByte i.secondaryHeaderFlag, numLoByte i.secondaryHeaderFlag, numHiByte i.apid, numLoByte i.apid,
   (fromSequenceFlags i.sequenceFlags).setWidth 8, numHiByte i.sequenceCount, numLoByte i.sequenceCount,
   numHiByte i.dataLength, numLoByte i.dataLength] ++ i.dataField

/-- The bytes of a `CspSerIn` record. -/
def encodeCspSerIn (i : CspSerIn) : Bytes :=
  [numHiByte i.priority, numLoByte i.priority, numHiByte i.source, numLoByte i.source,
   numHiByte i.destination, numLoByte i.destination, numHiByte i.destinationPort, numLoByte i.destinationPort,
   numHiByte i.sourcePort, numLoByte i.sourcePort, numHiByte i.reserved, numLoByte i.reserved,
   (fromBool i.hmac).setWidth 8, (fromBool i.xtea).setWidth 8, (fromBool i.rdp).setWidth 8,
   (fromBool i.crc).setWidth 8] ++ i.data

/-- The request that asks for a well-formed instruction: the `op` of its row (30_encoding.md R70) and its operand record
(R71). -/
def encode : Instr → Request
  | .sppParse i => { op := 0b00#2, operands := i.buf }
  | .sppSerialize i => { op := 0b01#2, operands := encodeSppSerIn i }
  | .cspParse i => { op := 0b10#2, operands := i.buf }
  | .cspSerialize i => { op := 0b11#2, operands := encodeCspSerIn i }

/-- How many bytes of the operand record have a fixed place, for the `op`. -/
def fixedOperandBytes (op : BitVec 2) : Nat :=
  match opFormat op, opDirection op with
  | .spp, .parse => 0
  | .spp, .serialize => 12
  | .csp, .parse => 0
  | .csp, .serialize => 16

/-- The request whose table bits are `w`: `op` is bits 1 to 0 (the table's only field), the bytes above the first are
operand bytes, and the rest of the operand record is zeros: its numeric fields 0, its enums and Booleans the variant
encoded 0, and its byte sequence of length zero (assumption log 11). -/
def tableRequest (nbits w : Nat) : Request :=
  let given := (List.range ((nbits + 7) / 8 - 1)).map fun j => BitVec.ofNat 8 (w >>> (8 * (j + 1)))
  { op := BitVec.ofNat 2 w
    operands := given ++ List.replicate (fixedOperandBytes (BitVec.ofNat 2 w) - given.length) 0#8 }

/-- What the decoder reads from the request of a table word. -/
def decodeTableWord (nbits w : Nat) : Option Instr := (decode (tableRequest nbits w)).toOption

end Sys2Proof
end

