-- ==== Sys2Proof/Machine/State.lean ====
section
/-! DEFINITION. Machine/State.lean: the records of a response (10_state.md R30 to R35), the state of one instance of the
block with its two channels (R39 to R41), and the state after reset. -/
namespace Sys2Proof.Machine

/-- The response status (60_exceptions.md R181). -/
inductive Status where
  | ok
  | tooShort
  | tooLong
  | invalidVersion
  | invalidPacketType
  | invalidSequenceFlags
deriving DecidableEq, Repr

/-- `SpacePacket` (10_state.md R32): the SPP parser's output record. -/
structure SpacePacket where
  version : BitVec 3
  packetType : PacketType
  secondaryHeaderFlag : BitVec 1
  apid : BitVec 11
  sequenceFlags : SequenceFlags
  sequenceCount : BitVec 14
  dataLength : BitVec 11
  dataField : Bytes
deriving DecidableEq, Repr

/-- `CspPacket` (10_state.md R35): the CSP parser's output record. -/
structure CspPacket where
  priority : BitVec 1
  source : BitVec 5
  destination : BitVec 5
  destinationPort : BitVec 6
  sourcePort : BitVec 6
  reserved : BitVec 4
  hmac : Bool
  xtea : Bool
  rdp : Bool
  crc : Bool
  data : Bytes
deriving DecidableEq, Repr

/-- The body of a response (10_state.md R30). -/
inductive Body where
  | spacePacket (p : SpacePacket)
  | cspPacket (p : CspPacket)
  | bytes (out : Bytes)
  | none
deriving DecidableEq, Repr

/-- A response `{status, body}` (10_state.md R30). -/
structure Response where
  status : Status
  body : Body
deriving DecidableEq, Repr

/-- The transaction phase of the agent (10_state.md R41). -/
inductive Phase where
  | idle
  | busy (req : Request)
deriving DecidableEq, Repr

/-- One instance of the block. `phase`, `readyDelay` and `cspMaskSet` are the block's; the channels are its interface
(R40). -/
structure State where
  /-- R41: `Idle`, or `Busy` with the request captured at `accept`. -/
  phase : Phase
  /-- The requests the host presents and the block has not accepted, first presented first; the model's own field for
  the host's side of the request channel (R40; assumption log 6). -/
  reqQueue : List Request
  /-- The response channel: responses emitted and not yet transferred, oldest first (R39, R40; assumption log 7). -/
  rspQueue : List Response
  /-- `rsp_ready` (R40): the host's signal that it takes a response; the model's own field for the host's side of the
  response channel (assumption log 7). -/
  rspReady : Bool
  /-- The responses transferred to the host, oldest first; the model's own field for the host's side of the response
  channel (R40; assumption log 7). -/
  rspTaken : List Response
  /-- For how many more steps `req_ready` stays 0 after a reset (R39; assumption log 15). -/
  readyDelay : Nat
  /-- How many resets the block has taken: the model's own counter, at which the free delay is drawn (assumption
  log 15). -/
  resetCount : Nat
  /-- The host's reset input (70_reset_and_hazards.md R210); the model's own field (assumption log 8). -/
  resetAsserted : Bool
  /-- `CSP_MASK_SET` (00_scope.md R11): fixed when the block is built, never changed by a step (R24; assumption log 3). -/
  cspMaskSet : BitVec 6
deriving DecidableEq, Repr

/-- No step of the block faults: it has no trap (60_exceptions.md R190), and a parse error is a response (R180). -/
inductive Fault where
deriving DecidableEq, Repr

/-- Why the model gives a step no meaning. -/
inductive Refusal where
  /-- Raised by an arm of `exec` whose instruction has no meaning yet. Safe. No arm raises it. -/
  | notModelled (mnemonic : String)
  /-- Raised by `step` in `Busy` when the held operand bytes are no operand record. A realisation transfers whole records
  (10_state.md R40), so no request of a realisation is concerned. Safe (assumption log 10). -/
  | notARequest (why : DecodeError)
deriving DecidableEq, Repr

/-- The block right after reset (10_state.md R39, 70_reset_and_hazards.md R210): `Idle`, no held request, the response
channel empty, `req_ready` after any finite delay, and the build parameter as built. The host presents nothing yet, and
has taken nothing. -/
def State.reset : State where
  phase := .idle
  reqQueue := []
  rspQueue := []
  rspReady := false
  rspTaken := []
  readyDelay := Config.reqReadyDelay 0
  resetCount := 0
  resetAsserted := false
  cspMaskSet := Config.cspMaskSet

end Sys2Proof.Machine
end

