-- ==== Sys2Proof/Machine/Flags.lean ====
section
/-! DEFINITION. Machine/Flags.lean: the block has no flags, condition codes or predicates (10_state.md R23). "The only
indicator of an operation's outcome is the `status` field of its response": its codes, and what `raise` answers. -/
namespace Sys2Proof.Machine

/-- The 3-bit status code (60_exceptions.md R181). -/
def Status.code : Status → BitVec 3
  | .ok => 0#3
  | .tooShort => 1#3
  | .tooLong => 2#3
  | .invalidVersion => 3#3
  | .invalidPacketType => 4#3
  | .invalidSequenceFlags => 5#3

/-- `raise E` (00_scope.md R17, 60_exceptions.md R186): status `E`, body `None`. -/
def raise (e : Status) : Response := { status := e, body := .none }

/-- A success: status `OK` and the body (10_state.md R30). -/
def succeed (b : Body) : Response := { status := .ok, body := b }

end Sys2Proof.Machine
end

