-- ==== Sys2Proof/Machine/Ops.lean ====
section
/-! DEFINITION. Machine/Ops.lean: the fixed constants of the block (00_scope.md R9), the length check both parsers share,
the steps of the agent and the signals of its two channels (10_state.md R40, R41), reset (70_reset_and_hazards.md R210),
and what the host does at the interface. The block takes no exception and returns from none (60_exceptions.md R190,
R191): the operation that would take one is `raise` in Flags.lean, which answers a response. -/
namespace Sys2Proof.Machine

/-- `HDR_SPP` (R9): SPP header size in bytes. -/
def hdrSpp : Nat := 6

/-- `HDR_CSP` (R9): CSP header size in bytes. -/
def hdrCsp : Nat := 4

/-- `MAX_BUF` (R9): the largest buffer length either parser accepts. -/
def maxBuf : Nat := 65535

/-- `SPP_VERSION` (R9): the only packet version number the SPP parser accepts. -/
def sppVersion : Nat := 0

/-- The length checks of a parser whose header has `hdr` bytes, in the order of 60_exceptions.md R188, before any header
bit is read (R182, R183); `k` is the rest of the parse. -/
def withLengthChecked (hdr : Nat) (B : Bytes) (k : Response) : Response :=
  if B.length < hdr then raise .tooShort
  else if maxBuf < B.length then raise .tooLong
  else k

/-- `req_valid` (R40): the host presents a request. -/
def State.reqValid (s : State) : Bool := !s.reqQueue.isEmpty

/-- `req_ready` (R40): `accept` is enabled when the phase is `Idle` (R41), once the delay after a reset has passed (R39;
assumption log 15). While reset is asserted no request transfers (assumption log 8). -/
def State.reqReady (s : State) : Bool := s.phase == .idle && s.readyDelay == 0 && !s.resetAsserted

/-- `rsp_valid` (R40): the response channel holds a response. While reset is asserted none transfers (assumption
log 8). -/
def State.rspValid (s : State) : Bool := !s.rspQueue.isEmpty && !s.resetAsserted

/-- The response channel's part of a step (R40): with `rsp_valid` and `rsp_ready` the oldest response transfers to the
host. -/
def State.transferResponse (s : State) : State :=
  match s.rspQueue, s.rspReady with
  | p :: rest, true => { s with rspQueue := rest, rspTaken := s.rspTaken ++ [p] }
  | _, _ => s

/-- `accept(req)` (R41): the phase becomes `Busy(req)` with the request's values captured; the transfer takes it from the
request channel (R40). With nothing presented the agent waits (assumption log 9). -/
def State.accept (s : State) : State :=
  match s.reqQueue with
  | [] => s
  | r :: rest => { s with phase := .busy r, reqQueue := rest }

/-- The agent's part of a step in `Idle`: `accept`, or one more step of the delay after a reset (R39; assumption
log 15). -/
def State.awaitRequest (s : State) : State :=
  match s.readyDelay with
  | 0 => s.accept
  | d + 1 => { s with readyDelay := d }

/-- `respond` (R41): the agent emits the response and the phase becomes `Idle`. -/
def State.respond (s : State) (r : Response) : State :=
  { s with phase := .idle, rspQueue := s.rspQueue ++ [r] }

/-- Reset (70_reset_and_hazards.md R210): the phase becomes `Idle`, a held request is discarded and the response channel
holds nothing; `req_ready` follows after any finite delay (R39; assumption log 15). The build parameter stays (R39), and
so does the host's side of the channels (assumption log 8). -/
def State.takeReset (s : State) : State :=
  { s with
    phase := .idle
    rspQueue := []
    readyDelay := Config.reqReadyDelay (s.resetCount + 1)
    resetCount := s.resetCount + 1
    resetAsserted := false }

/-- The host presents one more request (R40). -/
def State.hostPresent (s : State) (r : Request) : State := { s with reqQueue := s.reqQueue ++ [r] }

/-- The host drives `rsp_ready` (R40). -/
def State.hostReady (s : State) (ready : Bool) : State := { s with rspReady := ready }

/-- The host collects the responses that have transferred to it (R40). -/
def State.hostTake (s : State) : List Response × State := (s.rspTaken, { s with rspTaken := [] })

/-- The host asserts reset (R210); the block's next step takes it. -/
def State.hostReset (s : State) : State := { s with resetAsserted := true }

end Sys2Proof.Machine
end

