-- ==== Sys2Proof/Machine/CspUnit.lean ====
section
/-! DEFINITION. Machine/CspUnit.lean: the CSP unit (42_csp.md): its layout, `CSP_PARSE` and `CSP_SERIALIZE`. -/
namespace Sys2Proof.Machine

/-- The fields of the CSP header (30_encoding.md R78). -/
inductive CspField where
  | priority
  | source
  | destination
  | destinationPort
  | sourcePort
  | reserved
  | hmac
  | xtea
  | rdp
  | crc
deriving DecidableEq, Repr

/-- `(priority, 30, 1)` (42_csp.md R150, 90_conflicts.md C1). -/
abbrev CspDesc.priority : FieldDesc CspField := ⟨.priority, 30, 1⟩

/-- `(source, 25, 5)` (42_csp.md R150, 90_conflicts.md C1). -/
abbrev CspDesc.source : FieldDesc CspField := ⟨.source, 25, 5⟩

/-- `(destination, 20, 5)` (42_csp.md R150, 90_conflicts.md C1). -/
abbrev CspDesc.destination : FieldDesc CspField := ⟨.destination, 20, 5⟩

/-- `(destinationPort, 14, 6)` (42_csp.md R150, 90_conflicts.md C1). -/
abbrev CspDesc.destinationPort : FieldDesc CspField := ⟨.destinationPort, 14, 6⟩

/-- `(sourcePort, 8, 6)` (42_csp.md R150, 90_conflicts.md C1). -/
abbrev CspDesc.sourcePort : FieldDesc CspField := ⟨.sourcePort, 8, 6⟩

/-- `(reserved, 4, 4)` (42_csp.md R150, 90_conflicts.md C1). -/
abbrev CspDesc.reserved : FieldDesc CspField := ⟨.reserved, 4, 4⟩

/-- `(hmac, 3, 1)` (42_csp.md R150, 90_conflicts.md C1). -/
abbrev CspDesc.hmac : FieldDesc CspField := ⟨.hmac, 3, 1⟩

/-- `(xtea, 2, 1)` (42_csp.md R150, 90_conflicts.md C1). -/
abbrev CspDesc.xtea : FieldDesc CspField := ⟨.xtea, 2, 1⟩

/-- `(rdp, 1, 1)` (42_csp.md R150, 90_conflicts.md C1). -/
abbrev CspDesc.rdp : FieldDesc CspField := ⟨.rdp, 1, 1⟩

/-- `(crc, 0, 1)` (42_csp.md R150, 90_conflicts.md C1). -/
abbrev CspDesc.crc : FieldDesc CspField := ⟨.crc, 0, 1⟩

/-- `CSP_LAYOUT` over 32 bits (R150). -/
def cspLayout : Layout CspField :=
  [CspDesc.priority, CspDesc.source, CspDesc.destination, CspDesc.destinationPort, CspDesc.sourcePort,
   CspDesc.reserved, CspDesc.hmac, CspDesc.xtea, CspDesc.rdp, CspDesc.crc]

/-- The record of a header word and the payload after it (R151, R153, R156). -/
def cspPacketOf (W : BitVec 32) (payload : Bytes) : CspPacket where
  priority := unpack W CspDesc.priority
  source := unpack W CspDesc.source
  destination := unpack W CspDesc.destination
  destinationPort := unpack W CspDesc.destinationPort
  sourcePort := unpack W CspDesc.sourcePort
  reserved := unpack W CspDesc.reserved
  hmac := toBool (unpack W CspDesc.hmac)
  xtea := toBool (unpack W CspDesc.xtea)
  rdp := toBool (unpack W CspDesc.rdp)
  crc := toBool (unpack W CspDesc.crc)
  data := payload

/-- `CSP_PARSE(B)` (R151): the length check is the only check (R155). -/
def cspParse (B : Bytes) : Response :=
  withLengthChecked hdrCsp B (succeed (.cspPacket (cspPacketOf (memRead B 0 4) (B.drop hdrCsp))))

/-- The value map of `CSP_SERIALIZE` (R157). -/
def cspValues (S : CspSerIn) : CspField → Nat
  | .priority => S.priority
  | .source => S.source
  | .destination => S.destination
  | .destinationPort => S.destinationPort
  | .sourcePort => S.sourcePort
  | .reserved => S.reserved
  | .hmac => (fromBool S.hmac).toNat
  | .xtea => (fromBool S.xtea).toNat
  | .rdp => (fromBool S.rdp).toNat
  | .crc => (fromBool S.crc).toNat

/-- The mask selector of `CSP_SERIALIZE` (R157): the bit of `CSP_MASK_SET` for a numeric field (00_scope.md R11), true
for a flag. -/
def cspMasked (maskSet : BitVec 6) : CspField → Bool
  | .priority => maskSet.getLsbD 5
  | .source => maskSet.getLsbD 4
  | .destination => maskSet.getLsbD 3
  | .destinationPort => maskSet.getLsbD 2
  | .sourcePort => maskSet.getLsbD 1
  | .reserved => maskSet.getLsbD 0
  | .hmac => true
  | .xtea => true
  | .rdp => true
  | .crc => true

/-- The header word `W` of `CSP_SERIALIZE` under a `CSP_MASK_SET` (R157). -/
def cspHeaderWord (maskSet : BitVec 6) (S : CspSerIn) : BitVec 32 :=
  pack cspLayout 32 (cspValues S) (cspMasked maskSet)

/-- The output bytes of `CSP_SERIALIZE(S)` under a `CSP_MASK_SET` (R157, R160). -/
def cspSerialize (maskSet : BitVec 6) (S : CspSerIn) : Bytes :=
  memWrite [] 0 4 (cspHeaderWord maskSet S) ++ S.data

/-- `embedCsp` (10_state.md R38). -/
def embedCsp (P : CspPacket) : CspSerIn where
  priority := P.priority.toNat
  source := P.source.toNat
  destination := P.destination.toNat
  destinationPort := P.destinationPort.toNat
  sourcePort := P.sourcePort.toNat
  reserved := P.reserved.toNat
  hmac := P.hmac
  xtea := P.xtea
  rdp := P.rdp
  crc := P.crc
  data := P.data

/-- `CSP_PARSE`: the agent responds with the parse of the request's buffer (R151, 10_state.md R41). -/
def execCspParse (inp : ParseIn) (s : State) : Host.Outcome State Fault Refusal :=
  .next (s.respond (cspParse inp.buf))

/-- `CSP_SERIALIZE`: the agent responds `OK` with the output bytes, under the `CSP_MASK_SET` the block was built with
(R157, R161, 10_state.md R41). -/
def execCspSerialize (inp : CspSerIn) (s : State) : Host.Outcome State Fault Refusal :=
  .next (s.respond (succeed (.bytes (cspSerialize s.cspMaskSet inp))))

end Sys2Proof.Machine
end

