-- ==== Sys2Proof/Machine/SpacePacketUnit.lean ====
section
/-! DEFINITION. Machine/SpacePacketUnit.lean: the SPP unit (41_space_packet.md): its layout, `SPP_PARSE` and
`SPP_SERIALIZE`. -/
namespace Sys2Proof.Machine

/-- The fields of the SPP primary header (30_encoding.md R73). -/
inductive SppField where
  | version
  | packetType
  | secondaryHeaderFlag
  | apid
  | sequenceFlags
  | sequenceCount
  | dataLength
deriving DecidableEq, Repr

/-- `(version, 45, 3)` (41_space_packet.md R120). -/
abbrev SppDesc.version : FieldDesc SppField := ⟨.version, 45, 3⟩

/-- `(packetType, 44, 1)` (41_space_packet.md R120). -/
abbrev SppDesc.packetType : FieldDesc SppField := ⟨.packetType, 44, 1⟩

/-- `(secondaryHeaderFlag, 43, 1)` (41_space_packet.md R120). -/
abbrev SppDesc.secondaryHeaderFlag : FieldDesc SppField := ⟨.secondaryHeaderFlag, 43, 1⟩

/-- `(apid, 32, 11)` (41_space_packet.md R120). -/
abbrev SppDesc.apid : FieldDesc SppField := ⟨.apid, 32, 11⟩

/-- `(sequenceFlags, 30, 2)` (41_space_packet.md R120). -/
abbrev SppDesc.sequenceFlags : FieldDesc SppField := ⟨.sequenceFlags, 30, 2⟩

/-- `(sequenceCount, 16, 14)` (41_space_packet.md R120). -/
abbrev SppDesc.sequenceCount : FieldDesc SppField := ⟨.sequenceCount, 16, 14⟩

/-- `(dataLength, 0, 11)` (41_space_packet.md R120). -/
abbrev SppDesc.dataLength : FieldDesc SppField := ⟨.dataLength, 0, 11⟩

/-- `SPP_LAYOUT` over 48 bits (R120). -/
def sppLayout : Layout SppField :=
  [SppDesc.version, SppDesc.packetType, SppDesc.secondaryHeaderFlag, SppDesc.apid, SppDesc.sequenceFlags,
   SppDesc.sequenceCount, SppDesc.dataLength]

/-- The record of an accepted header word and the payload after it (R121, R126 to R128; the enum gates R124 and R125 are
total conversions). The version is 0 (R121): it has been checked (R123). -/
def spacePacketOf (H : BitVec 48) (payload : Bytes) : SpacePacket where
  version := 0#3
  packetType := toPacketType (unpack H SppDesc.packetType)
  secondaryHeaderFlag := unpack H SppDesc.secondaryHeaderFlag
  apid := unpack H SppDesc.apid
  sequenceFlags := toSequenceFlags (unpack H SppDesc.sequenceFlags)
  sequenceCount := unpack H SppDesc.sequenceCount
  dataLength := unpack H SppDesc.dataLength
  dataField := payload

/-- `SPP_PARSE(B)` after the length checks (R121, R123). -/
def sppParseHeader (B : Bytes) (H : BitVec 48) : Response :=
  if (unpack H SppDesc.version).toNat ≠ sppVersion then raise .invalidVersion
  else succeed (.spacePacket (spacePacketOf H (B.drop hdrSpp)))

/-- `SPP_PARSE(B)` (R121). -/
def sppParse (B : Bytes) : Response :=
  withLengthChecked hdrSpp B (sppParseHeader B (memRead B 0 6))

/-- The value map of `SPP_SERIALIZE` (R130): the numeric inputs as they are, the enums by their encodings (R132). -/
def sppValues (S : SppSerIn) : SppField → Nat
  | .version => S.version
  | .packetType => (fromPacketType S.packetType).toNat
  | .secondaryHeaderFlag => S.secondaryHeaderFlag
  | .apid => S.apid
  | .sequenceFlags => (fromSequenceFlags S.sequenceFlags).toNat
  | .sequenceCount => S.sequenceCount
  | .dataLength => S.dataLength

/-- The header word `H` of `SPP_SERIALIZE` (R130, R131). -/
def sppHeaderWord (S : SppSerIn) : BitVec 48 := packMasked sppLayout 48 (sppValues S)

/-- The output bytes of `SPP_SERIALIZE(S)` (R130, R134): the header written at offset 0, then the payload. -/
def sppSerialize (S : SppSerIn) : Bytes := memWrite [] 0 6 (sppHeaderWord S) ++ S.dataField

/-- `embedSpp` (10_state.md R37). -/
def embedSpp (P : SpacePacket) : SppSerIn where
  version := P.version.toNat
  packetType := P.packetType
  secondaryHeaderFlag := P.secondaryHeaderFlag.toNat
  apid := P.apid.toNat
  sequenceFlags := P.sequenceFlags
  sequenceCount := P.sequenceCount.toNat
  dataLength := P.dataLength.toNat
  dataField := P.dataField

/-- `SPP_PARSE`: the agent responds with the parse of the request's buffer (R121, 10_state.md R41). -/
def execSppParse (inp : ParseIn) (s : State) : Host.Outcome State Fault Refusal :=
  .next (s.respond (sppParse inp.buf))

/-- `SPP_SERIALIZE`: the agent responds `OK` with the output bytes (R130, R135, 10_state.md R41). -/
def execSppSerialize (inp : SppSerIn) (s : State) : Host.Outcome State Fault Refusal :=
  .next (s.respond (succeed (.bytes (sppSerialize inp))))

end Sys2Proof.Machine
end

