-- ==== Sys2Proof/Machine/Dispatch.lean ====
section
/-! DEFINITION. Machine/Dispatch.lean: one arm per row of spec/opcode_table.json (30_encoding.md R70). -/
namespace Sys2Proof.Machine

def exec (i : Instr) (s : State) : Host.Outcome State Fault Refusal :=
  match i with
  | .sppParse inp => Sys2Proof.Machine.execSppParse inp s
  | .sppSerialize inp => Sys2Proof.Machine.execSppSerialize inp s
  | .cspParse inp => Sys2Proof.Machine.execCspParse inp s
  | .cspSerialize inp => Sys2Proof.Machine.execCspSerialize inp s

end Sys2Proof.Machine
end

