-- ==== Sys2Proof/Machine/Step.lean ====
section
/-! DEFINITION. Machine/Step.lean: one step of the agent (10_state.md R41), and where a table word is placed so that the
next step runs it. A step is an agent step, not a clock cycle: the model needs no time (70_reset_and_hazards.md R220). -/
namespace Sys2Proof.Machine

/-- One step. An asserted reset is taken first (R210). Else the response channel transfers if it can (R40), and the agent
takes its step: in `Idle` it accepts the presented request, or waits; in `Busy` it runs the held request and responds
(R41). A response emitted in this step transfers in a later one. -/
def step (s : State) : Host.Outcome State Fault Refusal :=
  if s.resetAsserted then .next s.takeReset
  else match s.phase with
    | .idle => .next s.transferResponse.awaitRequest
    | .busy r => match decode r with
      | .ok i => exec i s.transferResponse
      | .error e => .refused (.notARequest e)

/-- The state in which the request of a table word has just been accepted, so that the next step runs it: the step
fetches its operation from the held request (R41), and only when reset is not asserted. An accepted request has waited out
the delay after reset (assumption log 11). -/
def State.withFetchWord (s : State) (nbits w : Nat) : State :=
  { s with phase := .busy (tableRequest nbits w), readyDelay := 0, resetAsserted := false }

end Sys2Proof.Machine
end

