-- ==== Sys2Proof/Safety.lean ====
section
/-! DEFINITION. Safety.lean: the terms in which claims about the block are stated: what a request is answered with, which
responses are legal, which requests are outstanding, and the duties the spec leaves to the host. -/
namespace Sys2Proof.Machine

/-- Request `i` in state `s` is answered with `r`: the agent emits `r`, the phase becomes `Idle` (10_state.md R41), and
nothing else of the state changes. -/
abbrev Answers (i : Instr) (s : State) (r : Response) : Prop :=
  exec i s = .next { s with phase := .idle, rspQueue := s.rspQueue ++ [r] }

/-- The operation function `Exec` (10_state.md R41), for a block built with `maskSet`. -/
def operation (maskSet : BitVec 6) : Instr → Response
  | .sppParse inp => sppParse inp.buf
  | .sppSerialize inp => succeed (.bytes (sppSerialize inp))
  | .cspParse inp => cspParse inp.buf
  | .cspSerialize inp => succeed (.bytes (cspSerialize maskSet inp))

/-- The response to a request as the channel carries it; none for operand bytes that are no operand record. -/
def responseTo (maskSet : BitVec 6) (r : Request) : Option Response :=
  match decode r with
  | .ok i => some (operation maskSet i)
  | .error _ => none

/-- The requests not answered yet, in the order of their answers: the held one, then those presented. -/
def State.outstanding (s : State) : List Request :=
  match s.phase with
  | .idle => s.reqQueue
  | .busy r => r :: s.reqQueue

/-- A response the spec allows (10_state.md R30, R32, R35, R51; 60_exceptions.md R185, R186): an error carries no body, an
accepted Space Packet has version 0 and at most 65529 payload bytes, an accepted CSP packet at most 65531, serialized
bytes hold at least a header, and codes 4 and 5 are never produced. -/
def Response.legal (r : Response) : Bool :=
  match r.status, r.body with
  | .ok, .spacePacket p => p.version == 0#3 && decide (p.dataField.length ≤ 65529)
  | .ok, .cspPacket p => decide (p.data.length ≤ 65531)
  | .ok, .bytes out => decide (4 ≤ out.length)
  | .tooShort, .none => true
  | .tooLong, .none => true
  | .invalidVersion, .none => true
  | _, _ => false

/-- Every response on the response channel is legal, and every one that has transferred to the host. -/
def State.responsesLegal (s : State) : Bool := s.rspQueue.all Response.legal && s.rspTaken.all Response.legal

/-- Every outstanding request is a request: a run that starts here and is not reset is never refused. -/
def State.answerable (s : State) : Prop := ∀ r ∈ s.outstanding, ∃ i, decode r = .ok i

end Sys2Proof.Machine

namespace Sys2Proof

/-- The range duty of `CSP_SERIALIZE` (70_reset_and_hazards.md R216): every numeric field below `2^w`. -/
def CspSerIn.inRange (S : CspSerIn) : Bool :=
  decide (S.priority < 2) && decide (S.source < 32) && decide (S.destination < 32) &&
  decide (S.destinationPort < 64) && decide (S.sourcePort < 64) && decide (S.reserved < 16)

/-- The lengths a realisation's `LEN_W`-bit length ports can carry (00_scope.md R12, 93_implementation_defined.md A13). -/
def Instr.lengthFits : Instr → Bool
  | .sppParse i => decide (i.buf.length < 2 ^ Config.lenW)
  | .sppSerialize i => decide (i.dataField.length < 2 ^ Config.lenW)
  | .cspParse i => decide (i.buf.length < 2 ^ Config.lenW)
  | .cspSerialize i => decide (i.data.length < 2 ^ Config.lenW)

/-- What a realisation can be presented with: its field widths and its length width hold the request. -/
def Instr.presentable (i : Instr) : Bool := i.wf && i.lengthFits

end Sys2Proof
end

