-- ==== Sys2Proof/Certificates/Slice0/Obligations.lean ====
section
/-! DEFINITION. Certificates/Slice0/Obligations.lean: the statements for the provers. A docstring names the rule a
statement formalises. Where it rests on a convention of the model it names the assumption log's entry, and where it rests
on a sentence the spec marks as its own inference or decision it says so. -/

open Sys2Proof Sys2Proof.Machine

/-! ## Requests and their encoding -/

/-- Decode and encode agree: every operand of every well-formed request survives, at every value. The bytes of an operand
record are the model's choice (logs 1 and 2). -/
def Obligations.EncodedRequestDecodesToItself : Prop :=
  ∀ i : Instr, WellFormed i → decode (encode i) = .ok i

/-- What is decoded fits the `SER_FIELD_W`-bit ports (the byte form is the model's choice, logs 1 and 4). -/
def Obligations.DecodedRequestsAreWellFormed : Prop :=
  ∀ (r : Request) (i : Instr), decode r = .ok i → WellFormed i

/-- 30_encoding.md R70 [decision D1] and R72 [derived]: each of the four `op` values selects its operation, and no request
with a whole operand record (16 bytes hold any; logs 1 and 10) is refused because of its `op`. -/
def Obligations.EveryOpSelectsItsOperation : Prop :=
  ∀ B : Bytes, 16 ≤ B.length →
    decode ⟨0b00#2, B⟩ = .ok (.sppParse ⟨B⟩) ∧
    (∃ S : SppSerIn, decode ⟨0b01#2, B⟩ = .ok (.sppSerialize S) ∧ S.dataField = B.drop 12) ∧
    decode ⟨0b10#2, B⟩ = .ok (.cspParse ⟨B⟩) ∧
    (∃ S : CspSerIn, decode ⟨0b11#2, B⟩ = .ok (.cspSerialize S) ∧ S.data = B.drop 16)

/-- A request is refused by the decoder exactly when its operand bytes end inside the operand record (log 10). -/
def Obligations.DecoderRefusesExactlyRecordsCutShort : Prop :=
  ∀ r : Request, (∃ e, decode r = .error e) ↔
    (r.op = 0b01#2 ∧ r.operands.length < 12) ∨ (r.op = 0b11#2 ∧ r.operands.length < 16)

/-- Sanity: the request of vector W8 (95_test_vectors.md), that of W2 with its payload cut to one byte, and a table word,
byte by byte (logs 1 and 11). -/
def Obligations.KnownRequestsDecode : Prop :=
  decode ⟨0b00#2, [0x10#8, 0x01#8, 0x40#8, 0x01#8, 0x00#8, 0x03#8]⟩ =
      .ok (.sppParse ⟨[0x10#8, 0x01#8, 0x40#8, 0x01#8, 0x00#8, 0x03#8]⟩) ∧
  decode ⟨0b01#2, [0#8, 0#8, 1#8, 0#8, 0#8, 0#8, 1#8, 1#8, 0#8, 1#8, 0#8, 3#8, 0xDE#8]⟩ =
      .ok (.sppSerialize ⟨0, .telecommand, 0, 1, .firstSegment, 1, 3, [0xDE#8]⟩) ∧
  decodeTableWord 8 0b10 = some (.cspParse ⟨[]⟩)

/-! ## The agent: accept, respond, reset -/

/-- A step in `Busy` runs the operation the held request decodes to (10_state.md R41 [decision D10]). What `step` adds
around it is the response channel's transfer (R40), which comes first (log 7). -/
def Obligations.StepRunsTheHeldRequest : Prop :=
  ∀ (s : State) (r : Request) (i : Instr),
    s.resetAsserted = false → s.phase = .busy r → decode r = .ok i → step s = exec i s.transferResponse

/-- The model's choice (log 10): a held request whose operand bytes are no record is refused by name. -/
def Obligations.StepRefusesAHeldRequestCutShort : Prop :=
  ∀ (s : State) (r : Request) (e : DecodeError),
    s.resetAsserted = false → s.phase = .busy r → decode r = .error e → step s = .refused (.notARequest e)

/-- 10_state.md R41 [decision D10] `accept`: in `Idle`, once the delay after a reset has passed, the first presented
request is captured and leaves the channel. That with nothing presented the agent waits is the model's choice (log 9), and
so is that each step in `Idle` counts one off a delay still running (log 15; R39 [decision D13] says only that it is
finite). The response channel's transfer (R40) comes first in every case (log 7). -/
def Obligations.IdleStepAcceptsOrWaits : Prop :=
  ∀ s : State, s.resetAsserted = false → s.phase = .idle →
    (∀ r rest, s.readyDelay = 0 → s.reqQueue = r :: rest →
      step s = .next { s.transferResponse with phase := .busy r, reqQueue := rest }) ∧
    (s.readyDelay = 0 → s.reqQueue = [] → step s = .next s.transferResponse) ∧
    (∀ d, s.readyDelay = d + 1 → step s = .next { s.transferResponse with readyDelay := d })

/-- 10_state.md R40 [decision D1], request channel: a step takes a request exactly when `req_valid` = 1 and `req_ready` = 1,
and it is the first presented one that becomes the held one. When the block drives `req_ready` is the model's: exactly in
`Idle` (log 5, from R41), after the delay that follows a reset (log 15), and not while reset is asserted (log 8). The list
of presented requests is the model's too (log 6). -/
def Obligations.RequestTransfersExactlyWhenValidAndReady : Prop :=
  ∀ s t : State, step s = .next t →
    (s.reqValid = true ∧ s.reqReady = true → ∃ r, s.reqQueue = r :: t.reqQueue ∧ t.phase = .busy r) ∧
    (¬ (s.reqValid = true ∧ s.reqReady = true) → t.reqQueue = s.reqQueue) ∧
    (s.reqReady = true ↔ s.phase = .idle ∧ s.readyDelay = 0 ∧ s.resetAsserted = false)

/-- 10_state.md R40 [decision D1], response channel: a step transfers a response to the host exactly when `rsp_valid` = 1
and `rsp_ready` = 1, and it is the oldest one on the channel. The lists of waiting and of transferred responses are the
model's (log 7), and so is that `rsp_valid` is 0 while reset is asserted (log 8). -/
def Obligations.ResponseTransfersExactlyWhenValidAndReady : Prop :=
  ∀ s t : State, step s = .next t →
    (s.rspValid = true ∧ s.rspReady = true →
      ∃ p rest, s.rspQueue = p :: rest ∧ t.rspTaken = s.rspTaken ++ [p] ∧ (t.rspQueue = rest ∨
        ∃ r, t.rspQueue = rest ++ [r])) ∧
    (¬ (s.rspValid = true ∧ s.rspReady = true) → t.rspTaken = s.rspTaken) ∧
    (s.rspValid = true ↔ s.rspQueue ≠ [] ∧ s.resetAsserted = false)

/-- 70_reset_and_hazards.md R210 [decision D13]: reset puts the phase at `Idle`, discards a held request without a
response, and empties the response channel; the build parameter stays and `req_ready` follows after a delay that nothing
states (10_state.md R39 [decision D13]; the free value of log 15). That the host's side of the channels stays, and that one
step takes the assertion, is the model's choice (log 8). -/
def Obligations.AssertedResetDiscardsTheHeldRequest : Prop :=
  ∀ s : State, s.resetAsserted = true →
    step s = .next { s with
      phase := .idle, rspQueue := [], resetAsserted := false,
      resetCount := s.resetCount + 1, readyDelay := Config.reqReadyDelay (s.resetCount + 1) }

/-- 10_state.md R39 [decision D13]: after reset the phase is `Idle` and the response channel is empty, so `rsp_valid` = 0.
`req_ready` comes after any finite delay (R39): whatever the free value of log 15 is, a request presented after reset is
accepted in the step after the delay, like any other (R212 [decision D13]). That the delay counts agent steps is the
model's choice (logs 5 and 15), and so are the host's side at reset, with nothing else presented and reset not asserted
(logs 6 and 8), and the order in which a step's parts come (log 7). -/
def Obligations.ResetLeavesTheBlockIdle : Prop :=
  State.reset.phase = .idle ∧ State.reset.rspValid = false ∧
  ∀ r : Request, Host.Core.run Sys2Proof.core (State.reset.readyDelay + 1) (State.reset.hostPresent r) =
    .next { State.reset with phase := .busy r, readyDelay := 0 }

/-- The responses are legal at reset, because there are none. That the response channel is empty is 10_state.md R39
[decision D13]; that the host has taken none either (`rspTaken`, the model's own field, is empty in `State.reset`) is the
model's choice (log 7). -/
def Obligations.ResetResponsesAreLegal : Prop := State.reset.responsesLegal = true

/-- Invariant: every step keeps every response legal, on the channel and once transferred: an error has no body, an
accepted Space Packet has version 0 and at most 65529 payload bytes, an accepted CSP packet at most 65531, and codes 4 and
5 never occur (10_state.md R30, R32, R35; 60_exceptions.md R185 [decision D20]). The lists of waiting and of transferred
responses are the model's (log 7). -/
def Obligations.StepKeepsResponsesLegal : Prop :=
  ∀ s t : State, s.responsesLegal = true → step s = .next t → t.responsesLegal = true

/-- 10_state.md R24 [decision D14]: no step changes `CSP_MASK_SET`; reset does not either (R39). -/
def Obligations.StepKeepsTheMaskSet : Prop :=
  ∀ s t : State, step s = .next t → t.cspMaskSet = s.cspMaskSet

/-- Responses come in the order of acceptance, exactly one for each request (10_state.md R31, 20_memory.md R65 [decision
D10]): while reset is not asserted, the responses the host has taken, those on the channel and those owed are, in this
order, the same before and after every step. The lists are the model's (logs 6 and 7). -/
def Obligations.StepAnswersInOrderOfAcceptance : Prop :=
  ∀ s t : State, s.resetAsserted = false → step s = .next t →
    t.resetAsserted = false ∧
    (t.rspTaken ++ t.rspQueue).map some ++ t.outstanding.map (responseTo t.cspMaskSet) =
      (s.rspTaken ++ s.rspQueue).map some ++ s.outstanding.map (responseTo s.cspMaskSet)

/-- Every presented request is answered, in order, in two steps each after the delay of a reset, and the block is `Idle`
again, though the host takes no response (10_state.md R31, R41 and 20_memory.md R65 [decision D10]). That the block goes on
accepting while emitted responses wait on the channel is the model's choice (log 7); that steps are untimed and what the
delay counts are logs 5 and 15, and the list of presented requests log 6. -/
def Obligations.EveryPresentedRequestIsAnswered : Prop :=
  ∀ s : State, s.resetAsserted = false → s.phase = .idle → s.rspReady = false → s.answerable →
    Host.Core.run Sys2Proof.core (s.readyDelay + 2 * s.reqQueue.length) s =
      .next { s with
        readyDelay := 0, reqQueue := [],
        rspQueue := s.rspQueue ++ s.reqQueue.filterMap (responseTo s.cspMaskSet) }

/-- A host that keeps `rsp_ready` = 1 receives every response, in order, those already on the channel first, and the
channel is empty again (10_state.md R31, R40, R41 and 20_memory.md R65 [decisions D1, D10]). How many steps this takes is
the model's choice (logs 5, 7 and 15), and the lists are the model's (logs 6 and 7). -/
def Obligations.EveryPresentedRequestIsDelivered : Prop :=
  ∀ s : State, s.resetAsserted = false → s.phase = .idle → s.rspReady = true → s.answerable →
    Host.Core.run Sys2Proof.core (s.readyDelay + 2 * s.reqQueue.length + s.rspQueue.length + 1) s =
      .next { s with
        readyDelay := 0, reqQueue := [], rspQueue := [],
        rspTaken := s.rspTaken ++ s.rspQueue ++ s.reqQueue.filterMap (responseTo s.cspMaskSet) }

/-- 10_state.md R20: the response is a function of the request alone (for one built block: same `CSP_MASK_SET`), in
whatever state the block is; afterwards the phase is `Idle` and nothing else but the channel has changed. -/
def Obligations.ResponseIsAFunctionOfTheRequest : Prop :=
  ∀ (i : Instr) (s t : State), s.cspMaskSet = t.cspMaskSet → ∃ r, Answers i s r ∧ Answers i t r

/-- Only `CSP_SERIALIZE` depends on `CSP_MASK_SET` (00_scope.md R11; 10_state.md R20): the other three operations answer
alike on any two builds. -/
def Obligations.OnlyCspSerializeDependsOnTheMaskSet : Prop :=
  ∀ (s t : State), (∀ p, ∃ r, Answers (.sppParse p) s r ∧ Answers (.sppParse p) t r) ∧
    (∀ S, ∃ r, Answers (.sppSerialize S) s r ∧ Answers (.sppSerialize S) t r) ∧
    (∀ p, ∃ r, Answers (.cspParse p) s r ∧ Answers (.cspParse p) t r)

/-- 60_exceptions.md R180: a parse error is a response with its status and body `None`; nothing else changes. -/
def Obligations.ParseErrorIsAResponseWithoutBody : Prop :=
  ∀ (i : Instr) (s : State), ∃ r, Answers i s r ∧ (r.status ≠ .ok → r.body = .none)

/-- 60_exceptions.md R185 [decision D20]: codes 4 and 5 are never returned; and a success has a body (10_state.md R30
[decision D18]). -/
def Obligations.ImpossibleCodesAreNeverReturned : Prop :=
  ∀ (i : Instr) (s : State), ∃ r, Answers i s r ∧ r.status ≠ .invalidPacketType ∧
    r.status ≠ .invalidSequenceFlags ∧ (r.status = .ok → r.body ≠ .none)

/-- 60_exceptions.md R181 [decision D2]: the status codes; 6 and 7 have no name. -/
def Obligations.StatusCodesAreThoseOfTheTable : Prop :=
  Status.ok.code = 0 ∧ Status.tooShort.code = 1 ∧ Status.tooLong.code = 2 ∧ Status.invalidVersion.code = 3 ∧
  Status.invalidPacketType.code = 4 ∧ Status.invalidSequenceFlags.code = 5 ∧
  ∀ e : Status, e.code ≠ 6 ∧ e.code ≠ 7

/-- 60_exceptions.md R187: the serializers always return `OK` with a byte sequence. -/
def Obligations.SerializersNeverFail : Prop :=
  (∀ (S : SppSerIn) (s : State), ∃ out, Answers (.sppSerialize S) s ⟨.ok, .bytes out⟩) ∧
  (∀ (S : CspSerIn) (s : State), ∃ out, Answers (.cspSerialize S) s ⟨.ok, .bytes out⟩)

/-! ## The bit-field unpacker and packer -/

/-- 40_bitfield.md R101: `UNPACK(word, f) = (word >> f.lo) & mask_w`; a 1-bit field gives 0 or 1; bits of the word outside
the field never affect the result; the rule's example. -/
def Obligations.UnpackShiftsAndMasks : Prop :=
  (∀ (ν : Type) (N : Nat) (word : BitVec N) (f : FieldDesc ν),
    (unpack word f).toNat = (word.toNat >>> f.lo) &&& (2 ^ f.width - 1) ∧
    (f.width = 1 → (unpack word f).toNat = 0 ∨ (unpack word f).toNat = 1) ∧
    ∀ word' : BitVec N, (∀ j, f.lo ≤ j → j < f.lo + f.width → word.getLsbD j = word'.getLsbD j) →
      unpack word f = unpack word' f) ∧
  (unpack 0x4089ABC0#32 CspDesc.destination).toNat = 8

/-- 40_bitfield.md R102, its OR [decision D5]: bit j of the packed word is set exactly when some field, truncated if it is
masked and as given if it is not, has a bit that its shift brings to j; bits shifted above N-1 are lost. -/
def Obligations.PackedBitIsTheOrOfTheFieldBits : Prop :=
  ∀ (ν : Type) (L : Layout ν) (N : Nat) (v : ν → Nat) (m : ν → Bool) (j : Nat),
    (pack L N v m).getLsbD j = (decide (j < N) && L.any fun f =>
      decide (f.lo ≤ j) &&
        (if m f.name then v f.name % 2 ^ f.width else v f.name).testBit (j - f.lo))

/-- 40_bitfield.md R103 and R104: the masked packer is that of `SPP_SERIALIZE`, and of `CSP_SERIALIZE` when every bit of
`CSP_MASK_SET` is set; the unmasked packer is that of `CSP_SERIALIZE` when it is all zero. -/
def Obligations.MaskSetExtremesAreTheTwoPackers : Prop :=
  (∀ (ν : Type) (L : Layout ν) (N : Nat) (v : ν → Nat),
    packMasked L N v = pack L N v (fun _ => true) ∧ packUnmasked L N v = pack L N v (fun _ => false)) ∧
  (∀ (S : SppSerIn) (s : State),
    Answers (.sppSerialize S) s
      ⟨.ok, .bytes (bytesOf 6 (packMasked sppLayout 48 (sppValues S)) ++ S.dataField)⟩) ∧
  (∀ (S : CspSerIn) (s : State), s.cspMaskSet = 0b111111#6 →
    Answers (.cspSerialize S) s ⟨.ok, .bytes (bytesOf 4 (packMasked cspLayout 32 (cspValues S)) ++ S.data)⟩) ∧
  (∀ (S : CspSerIn) (s : State), s.cspMaskSet = 0b000000#6 →
    Answers (.cspSerialize S) s ⟨.ok, .bytes (bytesOf 4 (packUnmasked cspLayout 32 (cspValues S)) ++ S.data)⟩)

/-- 40_bitfield.md R105 [derived]: the masked packer writes 0 to every bit outside the covered positions; so `H[15:11]`
of SPP and `W[31]` of CSP. -/
def Obligations.MaskedPackClearsUncoveredBits : Prop :=
  (∀ (ν : Type) (L : Layout ν) (N : Nat) (v : ν → Nat) (j : Nat),
    (covered L).testBit j = false → (packMasked L N v).getLsbD j = false) ∧
  (∀ v, (packMasked sppLayout 48 v).extractLsb' 11 5 = 0#5) ∧
  (∀ v, (packMasked cspLayout 32 v).getLsbD 31 = false)

/-- 40_bitfield.md R106 [derived]: on in-range values of a well-formed layout the mask selector does not matter, and the
word is the arithmetic sum of the shifted values. -/
def Obligations.InRangePackIsTheSumUnderAnyMask : Prop :=
  ∀ (ν : Type) (L : Layout ν) (N : Nat) (v : ν → Nat) (m : ν → Bool), L.WellFormed N →
    (∀ f ∈ L, v f.name < 2 ^ f.width) →
    pack L N v m = packMasked L N v ∧
    (pack L N v m).toNat = (L.map fun f => v f.name * 2 ^ f.lo).sum

/-- 40_bitfield.md R107 [derived]: unpacking a field of a masked pack gives the field's truncated value. -/
def Obligations.UnpackAfterMaskedPackTruncates : Prop :=
  ∀ (ν : Type) (L : Layout ν) (N : Nat) (v : ν → Nat), L.WellFormed N →
    ∀ f ∈ L, (unpack (packMasked L N v) f).toNat = v f.name % 2 ^ f.width

/-- 40_bitfield.md R108 [derived]: packing what was unpacked from a word gives the word's covered bits. -/
def Obligations.PackAfterUnpackKeepsCoveredBits : Prop :=
  ∀ (ν : Type) (L : Layout ν) (N : Nat) (word : BitVec N) (v : ν → Nat), L.WellFormed N →
    (∀ f ∈ L, v f.name = (unpack word f).toNat) →
    packMasked L N v = word &&& BitVec.ofNat N (covered L)

/-- 41_space_packet.md R120 and 42_csp.md R150: the descriptors of the two layouts and the bits they cover. -/
def Obligations.LayoutsAreThoseOfTheSpec : Prop :=
  sppLayout = [⟨.version, 45, 3⟩, ⟨.packetType, 44, 1⟩, ⟨.secondaryHeaderFlag, 43, 1⟩, ⟨.apid, 32, 11⟩,
    ⟨.sequenceFlags, 30, 2⟩, ⟨.sequenceCount, 16, 14⟩, ⟨.dataLength, 0, 11⟩] ∧
  covered sppLayout = 0xFFFFFFFF07FF ∧
  cspLayout = [⟨.priority, 30, 1⟩, ⟨.source, 25, 5⟩, ⟨.destination, 20, 5⟩, ⟨.destinationPort, 14, 6⟩,
    ⟨.sourcePort, 8, 6⟩, ⟨.reserved, 4, 4⟩, ⟨.hmac, 3, 1⟩, ⟨.xtea, 2, 1⟩, ⟨.rdp, 1, 1⟩, ⟨.crc, 0, 1⟩] ∧
  covered cspLayout = 0x7FFFFFFF

/-- 40_bitfield.md R100: both layouts of the block are well-formed [derived: from R73 and R78]. -/
def Obligations.LayoutsAreWellFormed : Prop := sppLayout.WellFormed 48 ∧ cspLayout.WellFormed 32

/-- 40_bitfield.md R109: byte j of `BYTES_OF(v, n)` is `v[8n-1-8j : 8n-8-8j]`, `MemRead(0, n)` over it gives v, and
`MemWrite(0, n, v)` writes it. -/
def Obligations.BytesOfIsTheInverseOfMemRead : Prop :=
  ∀ (n : Nat) (v : BitVec (8 * n)),
    (bytesOf n v).length = n ∧
    (∀ j, j < n → (bytesOf n v)[j]? = some (v.extractLsb' (8 * n - 8 - 8 * j) 8)) ∧
    memRead (bytesOf n v) 0 n = v ∧
    ∀ out : Bytes, (memWrite out 0 n v).take n = bytesOf n v

/-- 20_memory.md section 2 (Byte order; R53) and 00_scope.md section 4 (stream numbering; R15): byte j of the buffer is
bits `8n-1-8j` to `8n-8-8j` of the header word, so stream bit `8j + k` is bit `7-k` of byte j. -/
def Obligations.HeaderIsReadBigEndian : Prop :=
  ∀ (B : Bytes) (n : Nat), n ≤ B.length → ∀ (j : Nat) (b : Byte), j < n → B[j]? = some b →
    (memRead B 0 n).extractLsb' (8 * n - 8 - 8 * j) 8 = b ∧
    ∀ k, k < 8 → streamBit (memRead B 0 n) (8 * j + k) = b.getLsbD (7 - k)

/-- 40_bitfield.md R110 [decision D3, D20]: each `from` conversion inverts its `to` conversion, both ways. -/
def Obligations.ConversionsAreInverse : Prop :=
  (∀ b, fromPacketType (toPacketType b) = b) ∧ (∀ x, toPacketType (fromPacketType x) = x) ∧
  (∀ b, fromSequenceFlags (toSequenceFlags b) = b) ∧ (∀ x, toSequenceFlags (fromSequenceFlags x) = x) ∧
  (∀ b, fromBool (toBool b) = b) ∧ (∀ t, toBool (fromBool t) = t) ∧
  toSequenceFlags 0b01#2 = .firstSegment ∧ toPacketType 1#1 = .telecommand

/-! ## SPP_PARSE -/

/-- `SPP_PARSE` completes: a buffer of accepted length with version bits 0 is answered `OK` with every field read from its
own bits, by the per-byte column of 30_encoding.md R73; byte 4's bits 7 to 3 are read by no field (R74 [decision D6]), and
nothing compares `dataLength` with the payload (41_space_packet.md R129 [decision D16]). The values of the sequence flags
other than `01` rest on decision D3. -/
def Obligations.SppParseReturnsTheHeaderFields : Prop :=
  ∀ (b0 b1 b2 b3 b4 b5 : Byte) (payload : Bytes) (s : State),
    payload.length ≤ 65529 → b0.extractLsb' 5 3 = 0#3 →
    Answers (.sppParse ⟨b0 :: b1 :: b2 :: b3 :: b4 :: b5 :: payload⟩) s
      ⟨.ok, .spacePacket
        { version := 0#3
          packetType := if b0.getLsbD 4 then .telecommand else .telemetry
          secondaryHeaderFlag := b0.extractLsb' 3 1
          apid := b0.extractLsb' 0 3 ++ b1
          sequenceFlags :=
            match b2.getLsbD 7, b2.getLsbD 6 with
            | false, false => .continuation
            | false, true => .firstSegment
            | true, false => .lastSegment
            | true, true => .unsegmented
          sequenceCount := b2.extractLsb' 0 6 ++ b3
          dataLength := b4.extractLsb' 0 3 ++ b5
          dataField := payload }⟩

/-- 41_space_packet.md R122: exactly the lengths 6 to 65535 are accepted, below is `TOO_SHORT`, above is `TOO_LONG`,
whatever the bytes are. -/
def Obligations.SppParseChecksTheLengthFirst : Prop :=
  ∀ (B : Bytes) (s : State), ∃ r, Answers (.sppParse ⟨B⟩) s r ∧
    (r.status = .tooShort ↔ B.length < 6) ∧ (r.status = .tooLong ↔ 65535 < B.length) ∧
    (r.status = .ok ∨ r.status = .invalidVersion ↔ 6 ≤ B.length ∧ B.length ≤ 65535)

/-- 41_space_packet.md R123: at an accepted length, `INVALID_VERSION` exactly when `UNPACK(H, version)` is not 0, that is
when any of byte 0's bits 7, 6 and 5 is set. -/
def Obligations.SppParseRejectsExactlyNonzeroVersions : Prop :=
  ∀ (b0 : Byte) (rest : Bytes) (s : State), 5 ≤ rest.length → rest.length ≤ 65534 →
    ∃ r, Answers (.sppParse ⟨b0 :: rest⟩) s r ∧
      (r.status = .invalidVersion ↔ (unpack (memRead (b0 :: rest) 0 6) SppDesc.version).toNat ≠ 0) ∧
      (r.status = .invalidVersion ↔ b0.getLsbD 7 = true ∨ b0.getLsbD 6 = true ∨ b0.getLsbD 5 = true)

/-- 20_memory.md R54: the SPP multi-byte fields are big-endian; the data length is the 16-bit word of bytes 4 and 5 masked
to its low 11 bits. -/
def Obligations.SppMultiByteFieldsAreBigEndian : Prop :=
  ∀ (b0 b1 b2 b3 b4 b5 : Byte) (payload : Bytes) (s : State),
    payload.length ≤ 65529 → b0.extractLsb' 5 3 = 0#3 →
    ∃ p, Answers (.sppParse ⟨b0 :: b1 :: b2 :: b3 :: b4 :: b5 :: payload⟩) s ⟨.ok, .spacePacket p⟩ ∧
      p.apid = b0.extractLsb' 0 3 ++ b1 ∧
      p.sequenceCount = b2.extractLsb' 0 6 ++ b3 ∧
      p.dataLength.toNat = (b4.toNat * 256 + b5.toNat) &&& 0x7FF

/-- 41_space_packet.md R126: `secondaryHeaderFlag`, `apid` and `sequenceCount` are `UNPACK` of their descriptors, with no
range check: every value the width allows is accepted. -/
def Obligations.SppParseUnpacksUncheckedFields : Prop :=
  (∀ (B : Bytes) (s : State), ∃ r, Answers (.sppParse ⟨B⟩) s r ∧
    ∀ p, r.body = .spacePacket p →
      p.secondaryHeaderFlag = unpack (memRead B 0 6) SppDesc.secondaryHeaderFlag ∧
      p.apid = unpack (memRead B 0 6) SppDesc.apid ∧
      p.sequenceCount = unpack (memRead B 0 6) SppDesc.sequenceCount) ∧
  (∀ (flag : BitVec 1) (apid : BitVec 11) (count : BitVec 14) (s : State),
    ∃ B p, Answers (.sppParse ⟨B⟩) s ⟨.ok, .spacePacket p⟩ ∧
      p.secondaryHeaderFlag = flag ∧ p.apid = apid ∧ p.sequenceCount = count)

/-- 41_space_packet.md R128: on success the payload is `B[6..]`, which has `len(B) - 6` bytes. -/
def Obligations.SppParsePayloadIsTheRemainder : Prop :=
  ∀ (B : Bytes) (s : State), ∃ r, Answers (.sppParse ⟨B⟩) s r ∧
    (r.status = .ok → ∃ p, r.body = .spacePacket p ∧ p.dataField = B.drop 6 ∧
      p.dataField.length = B.length - 6 ∧ 6 ≤ B.length)

/-- 30_encoding.md R74 [decision D6]: bits 7 to 3 of byte 4 never change the response of `SPP_PARSE`. -/
def Obligations.SppParseIgnoresTheUnstoredBits : Prop :=
  ∀ (b0 b1 b2 b3 b4 b4' b5 : Byte) (payload : Bytes) (s : State), b4 &&& 0x07#8 = b4' &&& 0x07#8 →
    ∃ r, Answers (.sppParse ⟨b0 :: b1 :: b2 :: b3 :: b4 :: b5 :: payload⟩) s r ∧
      Answers (.sppParse ⟨b0 :: b1 :: b2 :: b3 :: b4' :: b5 :: payload⟩) s r

/-! ## SPP_SERIALIZE -/

/-- `SPP_SERIALIZE` completes: the six header bytes by the per-byte column of 30_encoding.md R73, each numeric field
truncated to its width, bits 7 to 3 of byte 4 written 0 (R74 [decision D6]), then the payload, for every record
(41_space_packet.md R130, R135 [decision D17]). The sequence flags' values rest on decision D3. -/
def Obligations.SppSerializeWritesTheHeaderBytes : Prop :=
  ∀ (S : SppSerIn) (s : State),
    Answers (.sppSerialize S) s
      ⟨.ok, .bytes
        ([BitVec.ofNat 8 (S.version % 8 * 32 + (if S.packetType = .telecommand then 16 else 0)
              + S.secondaryHeaderFlag % 2 * 8 + S.apid % 2048 / 256),
          BitVec.ofNat 8 (S.apid % 256),
          BitVec.ofNat 8 ((match S.sequenceFlags with
              | .continuation => 0
              | .firstSegment => 64
              | .lastSegment => 128
              | .unsegmented => 192) + S.sequenceCount % 16384 / 256),
          BitVec.ofNat 8 (S.sequenceCount % 256),
          BitVec.ofNat 8 (S.dataLength % 2048 / 256),
          BitVec.ofNat 8 (S.dataLength % 256)] ++ S.dataField)⟩

/-- 41_space_packet.md R131: every numeric field is truncated to its own width before packing, and nothing is written into
a neighbouring field: each field of the written header is its input modulo `2^w`, and the response is that of the truncated
inputs. -/
def Obligations.SppSerializeTruncatesEachField : Prop :=
  ∀ (S : SppSerIn) (s : State), ∃ out, Answers (.sppSerialize S) s ⟨.ok, .bytes out⟩ ∧
    (∀ f ∈ sppLayout, (unpack (memRead out 0 6) f).toNat = sppValues S f.name % 2 ^ f.width) ∧
    Answers (.sppSerialize { S with
      version := S.version % 8, secondaryHeaderFlag := S.secondaryHeaderFlag % 2, apid := S.apid % 2048,
      sequenceCount := S.sequenceCount % 16384, dataLength := S.dataLength % 2048 }) s ⟨.ok, .bytes out⟩

/-- 41_space_packet.md R132: the enum fields are written with `fromPacketType` and `fromSequenceFlags`, so `Telecommand`
is 1 and `FirstSegment` is `01`. -/
def Obligations.SppSerializeWritesTheEnums : Prop :=
  (∀ (S : SppSerIn) (s : State), ∃ out, Answers (.sppSerialize S) s ⟨.ok, .bytes out⟩ ∧
    unpack (memRead out 0 6) SppDesc.packetType = fromPacketType S.packetType ∧
    unpack (memRead out 0 6) SppDesc.sequenceFlags = fromSequenceFlags S.sequenceFlags) ∧
  fromPacketType .telecommand = 1#1 ∧ fromSequenceFlags .firstSegment = 0b01#2

/-- 41_space_packet.md R134: the output is `BYTES_OF(H, 6)` and then the payload, byte for byte, `6 + len` bytes. -/
def Obligations.SppSerializeOutputIsHeaderThenPayload : Prop :=
  ∀ (S : SppSerIn) (s : State), ∃ out, Answers (.sppSerialize S) s ⟨.ok, .bytes out⟩ ∧
    out.length = 6 + S.dataField.length ∧ out.take 6 = bytesOf 6 (sppHeaderWord S) ∧
    ∀ i, i < S.dataField.length → out[6 + i]? = S.dataField[i]?

/-- 41_space_packet.md R136 [derived], serialize-then-parse: `TOO_LONG` above 65529 payload bytes, else `INVALID_VERSION`
when the truncated version is not 0, else the record with every field truncated. -/
def Obligations.SppSerializeThenParse : Prop :=
  ∀ (S : SppSerIn) (s t : State), ∃ out, Answers (.sppSerialize S) s ⟨.ok, .bytes out⟩ ∧
    Answers (.sppParse ⟨out⟩) t
      (if 65529 < S.dataField.length then ⟨.tooLong, .none⟩
       else if S.version % 8 ≠ 0 then ⟨.invalidVersion, .none⟩
       else ⟨.ok, .spacePacket
        { version := 0#3
          packetType := S.packetType
          secondaryHeaderFlag := BitVec.ofNat 1 S.secondaryHeaderFlag
          apid := BitVec.ofNat 11 S.apid
          sequenceFlags := S.sequenceFlags
          sequenceCount := BitVec.ofNat 14 S.sequenceCount
          dataLength := BitVec.ofNat 11 S.dataLength
          dataField := S.dataField }⟩)

/-- 41_space_packet.md R137 [derived], parse-then-serialize: the input with byte 4 replaced by `B[4] & 0x07`, so unchanged
exactly when `B[4] & 0xF8 = 0`. -/
def Obligations.SppParseThenSerialize : Prop :=
  ∀ (B : Bytes) (P : SpacePacket) (s t : State), Answers (.sppParse ⟨B⟩) s ⟨.ok, .spacePacket P⟩ →
    ∃ (out : Bytes) (b4 : Byte), Answers (.sppSerialize (embedSpp P)) t ⟨.ok, .bytes out⟩ ∧ B[4]? = some b4 ∧
      out = B.set 4 (b4 &&& 0x07#8) ∧ (out = B ↔ b4 &&& 0xF8#8 = 0#8)

/-- 41_space_packet.md R136 and R138 [derived]: a record with version 0 and at most 65529 payload bytes, as every parsed
record is, serializes to bytes that parse to the same record. -/
def Obligations.SppRecordsRoundTrip : Prop :=
  (∀ (P : SpacePacket) (s t : State), P.version = 0#3 → P.dataField.length ≤ 65529 →
    ∃ out, Answers (.sppSerialize (embedSpp P)) s ⟨.ok, .bytes out⟩ ∧
      Answers (.sppParse ⟨out⟩) t ⟨.ok, .spacePacket P⟩) ∧
  (∀ (B : Bytes) (P : SpacePacket) (s : State), Answers (.sppParse ⟨B⟩) s ⟨.ok, .spacePacket P⟩ →
    P.version = 0#3 ∧ P.dataField.length ≤ 65529)

/-! ## CSP_PARSE -/

/-- `CSP_PARSE` completes: 30_encoding.md R78, the fields of the header word by its byte column, and 42_csp.md R156, the
payload. No bit pattern is refused. -/
def Obligations.CspParseReturnsTheHeaderFields : Prop :=
  ∀ (b0 b1 b2 b3 : Byte) (payload : Bytes) (s : State), payload.length ≤ 65531 →
    Answers (.cspParse ⟨b0 :: b1 :: b2 :: b3 :: payload⟩) s
      ⟨.ok, .cspPacket
        { priority := b0.extractLsb' 6 1
          source := b0.extractLsb' 1 5
          destination := b0.extractLsb' 0 1 ++ b1.extractLsb' 4 4
          destinationPort := b1.extractLsb' 0 4 ++ b2.extractLsb' 6 2
          sourcePort := b2.extractLsb' 0 6
          reserved := b3.extractLsb' 4 4
          hmac := b3.getLsbD 3
          xtea := b3.getLsbD 2
          rdp := b3.getLsbD 1
          crc := b3.getLsbD 0
          data := payload }⟩

/-- 42_csp.md R152 and R155: exactly the lengths 4 to 65535 are accepted, below is `TOO_SHORT`, above is `TOO_LONG`, and no
other check applies. -/
def Obligations.CspParseChecksOnlyTheLength : Prop :=
  ∀ (B : Bytes) (s : State), ∃ r, Answers (.cspParse ⟨B⟩) s r ∧
    (r.status = .tooShort ↔ B.length < 4) ∧ (r.status = .tooLong ↔ 65535 < B.length) ∧
    (r.status = .ok ↔ 4 ≤ B.length ∧ B.length ≤ 65535)

/-- 42_csp.md R154 [decision D7]: `W[31]`, the most significant bit of byte 0, never changes the response. -/
def Obligations.CspParseIgnoresTheTopBit : Prop :=
  ∀ (b0 : Byte) (rest : Bytes) (s : State),
    ∃ r, Answers (.cspParse ⟨b0 :: rest⟩) s r ∧ Answers (.cspParse ⟨(b0 ^^^ 0x80#8) :: rest⟩) s r

/-! ## CSP_SERIALIZE -/

/-- `CSP_SERIALIZE` completes, for every record and every `CSP_MASK_SET` (42_csp.md R157, its OR [decision D5]; R161
[decision D17]): each numeric field, truncated to its width if its mask bit is 1, is shifted to its place, the terms are
ORed, bits above 31 are dropped, and the word is written big-endian before the payload. -/
def Obligations.CspSerializeWritesTheHeaderWord : Prop :=
  ∀ (S : CspSerIn) (s : State),
    let field := fun (maskBit lo w v : Nat) => (if s.cspMaskSet.getLsbD maskBit then v % 2 ^ w else v) <<< lo
    let W := (field 5 30 1 S.priority ||| field 4 25 5 S.source ||| field 3 20 5 S.destination |||
      field 2 14 6 S.destinationPort ||| field 1 8 6 S.sourcePort ||| field 0 4 4 S.reserved |||
      (S.hmac.toNat * 8 + S.xtea.toNat * 4 + S.rdp.toNat * 2 + S.crc.toNat)) % 2 ^ 32
    Answers (.cspSerialize S) s
      ⟨.ok, .bytes
        ([BitVec.ofNat 8 (W / 2 ^ 24), BitVec.ofNat 8 (W / 2 ^ 16), BitVec.ofNat 8 (W / 2 ^ 8), BitVec.ofNat 8 W]
          ++ S.data)⟩

/-- 42_csp.md R159 [derived], with R157's OR [decision D5]: input bit k of a field whose mask bit is 0 lands on
`W[lo + k]` if `lo + k ≤ 31`; and a bit of `W` is set only because some field's bit lands there, inside the field's width
where the field is masked. -/
def Obligations.CspUnmaskedBitsSpillUpwards : Prop :=
  ∀ (S : CspSerIn) (s : State), ∃ out, Answers (.cspSerialize S) s ⟨.ok, .bytes out⟩ ∧
    (∀ f ∈ cspLayout, ∀ k, cspMasked s.cspMaskSet f.name = false → f.lo + k ≤ 31 →
      (cspValues S f.name).testBit k = true → (memRead out 0 4).getLsbD (f.lo + k) = true) ∧
    (∀ j, (memRead out 0 4).getLsbD j = true →
      ∃ f ∈ cspLayout, ∃ k, j = f.lo + k ∧ (cspValues S f.name).testBit k = true ∧
        (cspMasked s.cspMaskSet f.name = true → k < f.width))

/-- 42_csp.md R164 [derived]: for in-range inputs (the host's duty of 70_reset_and_hazards.md R216) the response is the
same for all 64 values of `CSP_MASK_SET`, and `W[31]` is 0. -/
def Obligations.CspInRangeSerializeIgnoresTheMaskSet : Prop :=
  ∀ (S : CspSerIn) (s t : State), S.inRange = true →
    ∃ out, Answers (.cspSerialize S) s ⟨.ok, .bytes out⟩ ∧ Answers (.cspSerialize S) t ⟨.ok, .bytes out⟩ ∧
      ∃ b0, out[0]? = some b0 ∧ b0.getLsbD 7 = false

/-- 42_csp.md R160: the output is `BYTES_OF(W, 4)` and then the payload, byte for byte, `4 + len` bytes. -/
def Obligations.CspSerializeOutputIsHeaderThenPayload : Prop :=
  ∀ (S : CspSerIn) (s : State), ∃ out, Answers (.cspSerialize S) s ⟨.ok, .bytes out⟩ ∧
    out.length = 4 + S.data.length ∧ out.take 4 = bytesOf 4 (cspHeaderWord s.cspMaskSet S) ∧
    ∀ i, i < S.data.length → out[4 + i]? = S.data[i]?

/-- 42_csp.md R162 [derived], serialize-then-parse on two blocks of any builds: `TOO_LONG` above 65531 payload bytes, else
`OK` with every numeric field unpacked from the header word, the Booleans that the word holds, and the payload; with
in-range inputs every field is its input. -/
def Obligations.CspSerializeThenParse : Prop :=
  ∀ (S : CspSerIn) (s t : State), ∃ out r, Answers (.cspSerialize S) s ⟨.ok, .bytes out⟩ ∧
    Answers (.cspParse ⟨out⟩) t r ∧
    (65531 < S.data.length → r = ⟨.tooLong, .none⟩) ∧
    (S.data.length ≤ 65531 →
      let W := cspHeaderWord s.cspMaskSet S
      ∃ p, r = ⟨.ok, .cspPacket p⟩ ∧
      p.priority = unpack W CspDesc.priority ∧ p.source = unpack W CspDesc.source ∧
      p.destination = unpack W CspDesc.destination ∧
      p.destinationPort = unpack W CspDesc.destinationPort ∧
      p.sourcePort = unpack W CspDesc.sourcePort ∧ p.reserved = unpack W CspDesc.reserved ∧
      p.hmac = S.hmac ∧ p.xtea = S.xtea ∧ p.rdp = S.rdp ∧ p.crc = S.crc ∧ p.data = S.data ∧
      (S.inRange = true → p.priority.toNat = S.priority ∧ p.source.toNat = S.source ∧
        p.destination.toNat = S.destination ∧ p.destinationPort.toNat = S.destinationPort ∧
        p.sourcePort.toNat = S.sourcePort ∧ p.reserved.toNat = S.reserved))

/-- 42_csp.md R163 [derived], parse-then-serialize under every `CSP_MASK_SET`: the input with byte 0 replaced by
`B[0] & 0x7F`, so unchanged exactly when `B[0] < 0x80`; and the re-parse gives the record back (R162 [derived]). -/
def Obligations.CspParseThenSerialize : Prop :=
  ∀ (B : Bytes) (P : CspPacket) (s t u : State), Answers (.cspParse ⟨B⟩) s ⟨.ok, .cspPacket P⟩ →
    ∃ (out : Bytes) (b0 : Byte), Answers (.cspSerialize (embedCsp P)) t ⟨.ok, .bytes out⟩ ∧ B[0]? = some b0 ∧
      out = B.set 0 (b0 &&& 0x7F#8) ∧ (out = B ↔ b0.toNat < 0x80) ∧
      Answers (.cspParse ⟨out⟩) u ⟨.ok, .cspPacket P⟩

/-- 10_state.md R37 and R38 [derived]: the embedded numeric fields are zero-extensions that fit the `SER_FIELD_W`-bit
ports; so a record a parse returned, whose payload is bounded (R32, R35), can be presented to a serializer, lengths
included (00_scope.md R12 [decision D9]), and an embedded CSP record meets the range duty (70_reset_and_hazards.md R216). -/
def Obligations.ParsedRecordsCanBePresentedAgain : Prop :=
  (∀ (B : Bytes) (P : SpacePacket) (s : State), Answers (.sppParse ⟨B⟩) s ⟨.ok, .spacePacket P⟩ →
    (Instr.sppSerialize (embedSpp P)).presentable = true) ∧
  (∀ (B : Bytes) (P : CspPacket) (s : State), Answers (.cspParse ⟨B⟩) s ⟨.ok, .cspPacket P⟩ →
    (Instr.cspSerialize (embedCsp P)).presentable = true ∧ (embedCsp P).inRange = true)
end

