-- ==== Sys2Proof/Laws/BitField.lean ====
section
/-! SUPPORT. Laws/BitField.lean: one lemma for each shared operation of the bit-field sub-block, which says what it
computes in the terms of its rule. -/
namespace Sys2Proof.Machine

/-- Two fields of at least one bit are disjoint when one ends before the other begins (R100). -/
theorem FieldDesc.disjoint_iff {ν : Type} (f g : FieldDesc ν) (hf : 1 ≤ f.width) (hg : 1 ≤ g.width) :
    f.disjoint g = true ↔ f.lo + f.width ≤ g.lo ∨ g.lo + g.width ≤ f.lo := by
  unfold FieldDesc.disjoint
  rw [Bool.or_eq_true, decide_eq_true_iff, decide_eq_true_iff]
  unfold FieldDesc.hi
  omega

/-- `packInput` is the `if m(f) then trunc(v) else v` of R102. -/
theorem packInput_eq (masked : Bool) (w v : Nat) :
    packInput masked w v = if masked = true then trunc w v else v := by
  unfold packInput trunc
  cases masked <;> simp only [Bool.false_eq_true, and_false, and_true, if_true, if_false]
  split
  · rfl
  · rw [Nat.mod_eq_of_lt (by omega)]

@[simp] theorem packOr_nil {ν : Type} (v : ν → Nat) (m : ν → Bool) : packOr [] v m = 0 := rfl

theorem packOr_cons {ν : Type} (f : FieldDesc ν) (L : Layout ν) (v : ν → Nat) (m : ν → Bool) :
    packOr (f :: L) v m = (packInput (m f.name) f.width (v f.name) <<< f.lo) ||| packOr L v m := rfl

@[simp] theorem covered_nil {ν : Type} : covered ([] : Layout ν) = 0 := rfl

theorem covered_cons {ν : Type} (f : FieldDesc ν) (L : Layout ν) :
    covered (f :: L) = (maskBits f.width <<< f.lo) ||| covered L := rfl

/-- Bit i of an unpacked field is bit `lo + i` of the word. -/
theorem unpack_getLsbD {ν : Type} {N : Nat} (word : BitVec N) (f : FieldDesc ν) (i : Nat) :
    (unpack word f).getLsbD i = (decide (i < f.width) && word.getLsbD (f.lo + i)) := by
  simp [unpack, BitVec.getLsbD_extractLsb']

@[simp] theorem bytesOf_length (n : Nat) (v : BitVec (8 * n)) : (bytesOf n v).length = n := by
  simp [bytesOf]

/-- A write to a fresh output buffer is the value's bytes. -/
@[simp] theorem memWrite_nil (n : Nat) (v : BitVec (8 * n)) : memWrite [] 0 n v = bytesOf n v := by
  simp [memWrite]

@[simp] theorem bigEndian_nil : bigEndian [] = 0 := rfl

/-- The first byte of a big-endian value is the most significant. -/
theorem bigEndian_cons (b : Byte) (B : Bytes) : bigEndian (b :: B) = b.toNat * 256 ^ B.length + bigEndian B := by
  have shift : ∀ (B : Bytes) (a : Nat),
      B.foldl (fun acc b => acc * 256 + b.toNat) a =
        a * 256 ^ B.length + B.foldl (fun acc b => acc * 256 + b.toNat) 0 := by
    intro B
    induction B with
    | nil => intro a; simp
    | cons c B ih =>
      intro a
      simp only [List.foldl_cons, List.length_cons]
      rw [ih (a * 256 + c.toNat), ih (0 * 256 + c.toNat)]
      ring
  unfold bigEndian
  simpa using shift B b.toNat

/-- Big-endian bytes stay below `256^len`. -/
theorem bigEndian_lt (B : Bytes) : bigEndian B < 256 ^ B.length := by
  induction B with
  | nil => simp
  | cons b B ih =>
    have hb : b.toNat < 256 := b.isLt
    have := Nat.mul_le_mul_right (256 ^ B.length) (Nat.le_sub_one_of_lt hb)
    rw [bigEndian_cons, List.length_cons, pow_succ]
    omega

/-- `MemRead(i, n)` as a natural, where the spec defines it. -/
theorem memRead_toNat (B : Bytes) (i n : Nat) (h : i + n ≤ B.length) :
    (memRead B i n).toNat = bigEndian ((B.drop i).take n) := by
  have hl : ((B.drop i).take n).length = n := by simp; omega
  have := bigEndian_lt ((B.drop i).take n)
  rw [hl] at this
  simp only [memRead, BitVec.toNat_ofNat]
  exact Nat.mod_eq_of_lt (by rwa [pow_mul, show (2 : Nat) ^ 8 = 256 from rfl])

end Sys2Proof.Machine
end

