-- ==== Sys2Proof/Laws/Decode.lean ====
section
/-! SUPPORT. Laws/Decode.lean: the decoder, one equation for each `op` (30_encoding.md R70), and the two bytes of a numeric
input. -/
namespace Sys2Proof

open Machine

theorem decode_op00 (B : Bytes) : decode ⟨0b00#2, B⟩ = .ok (.sppParse ⟨B⟩) := by
  simp [decode, opFormat, opDirection]

theorem decode_op01 (B : Bytes) : decode ⟨0b01#2, B⟩ = (decodeSppSerIn B).map .sppSerialize := by
  simp [decode, opFormat, opDirection]

theorem decode_op10 (B : Bytes) : decode ⟨0b10#2, B⟩ = .ok (.cspParse ⟨B⟩) := by
  simp [decode, opFormat, opDirection]

theorem decode_op11 (B : Bytes) : decode ⟨0b11#2, B⟩ = (decodeCspSerIn B).map .cspSerialize := by
  simp [decode, opFormat, opDirection]

/-- A numeric input fits its port below 2^16 (00_scope.md R10). -/
theorem fitsSerField_iff (v : Nat) : fitsSerField v = true ↔ v < 2 ^ 16 := decide_eq_true_iff

/-- The two bytes of a numeric input that fits them give it back. -/
theorem numFromBytes_numBytes (v : Nat) (h : v < 2 ^ 16) : numFromBytes (numHiByte v) (numLoByte v) = v := by
  simp [numFromBytes, numHiByte, numLoByte]
  omega

/-- A numeric input read from two bytes fits `SER_FIELD_W` bits. -/
theorem numFromBytes_lt (hi lo : Byte) : numFromBytes hi lo < 2 ^ 16 := by
  have := hi.isLt
  have := lo.isLt
  unfold numFromBytes
  omega

end Sys2Proof
end

