-- ==== Sys2Proof/Laws/State.lean ====
section
/-! SUPPORT. Laws/State.lean: each field after each update of the state, and everything each update can do, so that no
later proof unfolds a record update. -/
namespace Sys2Proof.Machine

variable (s : State) (r : Response) (q : Request) (b : Bool)

@[simp] theorem State.respond_phase : (s.respond r).phase = .idle := rfl
@[simp] theorem State.respond_reqQueue : (s.respond r).reqQueue = s.reqQueue := rfl
@[simp] theorem State.respond_rspQueue : (s.respond r).rspQueue = s.rspQueue ++ [r] := rfl
@[simp] theorem State.respond_rspReady : (s.respond r).rspReady = s.rspReady := rfl
@[simp] theorem State.respond_rspTaken : (s.respond r).rspTaken = s.rspTaken := rfl
@[simp] theorem State.respond_readyDelay : (s.respond r).readyDelay = s.readyDelay := rfl
@[simp] theorem State.respond_resetCount : (s.respond r).resetCount = s.resetCount := rfl
@[simp] theorem State.respond_resetAsserted : (s.respond r).resetAsserted = s.resetAsserted := rfl
@[simp] theorem State.respond_cspMaskSet : (s.respond r).cspMaskSet = s.cspMaskSet := rfl

@[simp] theorem State.takeReset_phase : s.takeReset.phase = .idle := rfl
@[simp] theorem State.takeReset_reqQueue : s.takeReset.reqQueue = s.reqQueue := rfl
@[simp] theorem State.takeReset_rspQueue : s.takeReset.rspQueue = [] := rfl
@[simp] theorem State.takeReset_rspReady : s.takeReset.rspReady = s.rspReady := rfl
@[simp] theorem State.takeReset_rspTaken : s.takeReset.rspTaken = s.rspTaken := rfl
@[simp] theorem State.takeReset_readyDelay : s.takeReset.readyDelay = Config.reqReadyDelay (s.resetCount + 1) := rfl
@[simp] theorem State.takeReset_resetCount : s.takeReset.resetCount = s.resetCount + 1 := rfl
@[simp] theorem State.takeReset_resetAsserted : s.takeReset.resetAsserted = false := rfl
@[simp] theorem State.takeReset_cspMaskSet : s.takeReset.cspMaskSet = s.cspMaskSet := rfl

@[simp] theorem State.hostPresent_phase : (s.hostPresent q).phase = s.phase := rfl
@[simp] theorem State.hostPresent_reqQueue : (s.hostPresent q).reqQueue = s.reqQueue ++ [q] := rfl
@[simp] theorem State.hostPresent_rspQueue : (s.hostPresent q).rspQueue = s.rspQueue := rfl
@[simp] theorem State.hostPresent_rspReady : (s.hostPresent q).rspReady = s.rspReady := rfl
@[simp] theorem State.hostPresent_rspTaken : (s.hostPresent q).rspTaken = s.rspTaken := rfl
@[simp] theorem State.hostPresent_readyDelay : (s.hostPresent q).readyDelay = s.readyDelay := rfl
@[simp] theorem State.hostPresent_resetCount : (s.hostPresent q).resetCount = s.resetCount := rfl
@[simp] theorem State.hostPresent_resetAsserted : (s.hostPresent q).resetAsserted = s.resetAsserted := rfl
@[simp] theorem State.hostPresent_cspMaskSet : (s.hostPresent q).cspMaskSet = s.cspMaskSet := rfl

@[simp] theorem State.hostReady_phase : (s.hostReady b).phase = s.phase := rfl
@[simp] theorem State.hostReady_reqQueue : (s.hostReady b).reqQueue = s.reqQueue := rfl
@[simp] theorem State.hostReady_rspQueue : (s.hostReady b).rspQueue = s.rspQueue := rfl
@[simp] theorem State.hostReady_rspReady : (s.hostReady b).rspReady = b := rfl
@[simp] theorem State.hostReady_rspTaken : (s.hostReady b).rspTaken = s.rspTaken := rfl
@[simp] theorem State.hostReady_readyDelay : (s.hostReady b).readyDelay = s.readyDelay := rfl
@[simp] theorem State.hostReady_resetCount : (s.hostReady b).resetCount = s.resetCount := rfl
@[simp] theorem State.hostReady_resetAsserted : (s.hostReady b).resetAsserted = s.resetAsserted := rfl
@[simp] theorem State.hostReady_cspMaskSet : (s.hostReady b).cspMaskSet = s.cspMaskSet := rfl

@[simp] theorem State.hostReset_phase : s.hostReset.phase = s.phase := rfl
@[simp] theorem State.hostReset_reqQueue : s.hostReset.reqQueue = s.reqQueue := rfl
@[simp] theorem State.hostReset_rspQueue : s.hostReset.rspQueue = s.rspQueue := rfl
@[simp] theorem State.hostReset_rspReady : s.hostReset.rspReady = s.rspReady := rfl
@[simp] theorem State.hostReset_rspTaken : s.hostReset.rspTaken = s.rspTaken := rfl
@[simp] theorem State.hostReset_readyDelay : s.hostReset.readyDelay = s.readyDelay := rfl
@[simp] theorem State.hostReset_resetCount : s.hostReset.resetCount = s.resetCount := rfl
@[simp] theorem State.hostReset_resetAsserted : s.hostReset.resetAsserted = true := rfl
@[simp] theorem State.hostReset_cspMaskSet : s.hostReset.cspMaskSet = s.cspMaskSet := rfl

@[simp] theorem State.hostTake_taken : s.hostTake.1 = s.rspTaken := rfl
@[simp] theorem State.hostTake_phase : s.hostTake.2.phase = s.phase := rfl
@[simp] theorem State.hostTake_reqQueue : s.hostTake.2.reqQueue = s.reqQueue := rfl
@[simp] theorem State.hostTake_rspQueue : s.hostTake.2.rspQueue = s.rspQueue := rfl
@[simp] theorem State.hostTake_rspReady : s.hostTake.2.rspReady = s.rspReady := rfl
@[simp] theorem State.hostTake_rspTaken : s.hostTake.2.rspTaken = [] := rfl
@[simp] theorem State.hostTake_readyDelay : s.hostTake.2.readyDelay = s.readyDelay := rfl
@[simp] theorem State.hostTake_resetCount : s.hostTake.2.resetCount = s.resetCount := rfl
@[simp] theorem State.hostTake_resetAsserted : s.hostTake.2.resetAsserted = s.resetAsserted := rfl
@[simp] theorem State.hostTake_cspMaskSet : s.hostTake.2.cspMaskSet = s.cspMaskSet := rfl

/-- Everything `transferResponse` can do: nothing transfers, or the oldest response does. -/
theorem State.transferResponse_cases :
    ((s.rspQueue = [] ∨ s.rspReady = false) ∧ s.transferResponse = s) ∨
    ∃ p rest, s.rspQueue = p :: rest ∧ s.rspReady = true ∧
      s.transferResponse = { s with rspQueue := rest, rspTaken := s.rspTaken ++ [p] } := by
  unfold State.transferResponse
  split
  · exact .inr ⟨_, _, ‹_›, ‹_›, rfl⟩
  · rename_i h
    refine .inl ⟨?_, rfl⟩
    cases hq : s.rspQueue with
    | nil => exact .inl rfl
    | cons p rest => exact .inr (by simpa [hq] using h)

/-- Everything `accept` can do: nothing is presented and it waits, or it captures the first presented request. -/
theorem State.accept_cases :
    (s.reqQueue = [] ∧ s.accept = s) ∨
    ∃ q rest, s.reqQueue = q :: rest ∧ s.accept = { s with phase := .busy q, reqQueue := rest } := by
  unfold State.accept
  split
  · exact .inl ⟨‹_›, rfl⟩
  · exact .inr ⟨_, _, ‹_›, rfl⟩

/-- Everything `awaitRequest` can do: the delay after a reset runs on, or it is over and the agent accepts or waits. -/
theorem State.awaitRequest_cases :
    (∃ d, s.readyDelay = d + 1 ∧ s.awaitRequest = { s with readyDelay := d }) ∨
    (s.readyDelay = 0 ∧ s.reqQueue = [] ∧ s.awaitRequest = s) ∨
    ∃ q rest, s.readyDelay = 0 ∧ s.reqQueue = q :: rest ∧
      s.awaitRequest = { s with phase := .busy q, reqQueue := rest } := by
  unfold State.awaitRequest
  split
  · rename_i hd
    rcases s.accept_cases with ⟨hq, h⟩ | ⟨q, rest, hq, h⟩
    · exact .inr (.inl ⟨hd, hq, h⟩)
    · exact .inr (.inr ⟨q, rest, hd, hq, h⟩)
  · exact .inl ⟨_, ‹_›, rfl⟩

@[simp] theorem State.transferResponse_phase : s.transferResponse.phase = s.phase := by
  rcases s.transferResponse_cases with ⟨_, h⟩ | ⟨_, _, _, _, h⟩ <;> rw [h]
@[simp] theorem State.transferResponse_reqQueue : s.transferResponse.reqQueue = s.reqQueue := by
  rcases s.transferResponse_cases with ⟨_, h⟩ | ⟨_, _, _, _, h⟩ <;> rw [h]
@[simp] theorem State.transferResponse_rspReady : s.transferResponse.rspReady = s.rspReady := by
  rcases s.transferResponse_cases with ⟨_, h⟩ | ⟨_, _, _, _, h⟩ <;> rw [h]
@[simp] theorem State.transferResponse_readyDelay : s.transferResponse.readyDelay = s.readyDelay := by
  rcases s.transferResponse_cases with ⟨_, h⟩ | ⟨_, _, _, _, h⟩ <;> rw [h]
@[simp] theorem State.transferResponse_resetCount : s.transferResponse.resetCount = s.resetCount := by
  rcases s.transferResponse_cases with ⟨_, h⟩ | ⟨_, _, _, _, h⟩ <;> rw [h]
@[simp] theorem State.transferResponse_resetAsserted : s.transferResponse.resetAsserted = s.resetAsserted := by
  rcases s.transferResponse_cases with ⟨_, h⟩ | ⟨_, _, _, _, h⟩ <;> rw [h]
@[simp] theorem State.transferResponse_cspMaskSet : s.transferResponse.cspMaskSet = s.cspMaskSet := by
  rcases s.transferResponse_cases with ⟨_, h⟩ | ⟨_, _, _, _, h⟩ <;> rw [h]

@[simp] theorem State.awaitRequest_rspQueue : s.awaitRequest.rspQueue = s.rspQueue := by
  rcases s.awaitRequest_cases with ⟨_, _, h⟩ | ⟨_, _, h⟩ | ⟨_, _, _, _, h⟩ <;> rw [h]
@[simp] theorem State.awaitRequest_rspReady : s.awaitRequest.rspReady = s.rspReady := by
  rcases s.awaitRequest_cases with ⟨_, _, h⟩ | ⟨_, _, h⟩ | ⟨_, _, _, _, h⟩ <;> rw [h]
@[simp] theorem State.awaitRequest_rspTaken : s.awaitRequest.rspTaken = s.rspTaken := by
  rcases s.awaitRequest_cases with ⟨_, _, h⟩ | ⟨_, _, h⟩ | ⟨_, _, _, _, h⟩ <;> rw [h]
@[simp] theorem State.awaitRequest_resetCount : s.awaitRequest.resetCount = s.resetCount := by
  rcases s.awaitRequest_cases with ⟨_, _, h⟩ | ⟨_, _, h⟩ | ⟨_, _, _, _, h⟩ <;> rw [h]
@[simp] theorem State.awaitRequest_resetAsserted : s.awaitRequest.resetAsserted = s.resetAsserted := by
  rcases s.awaitRequest_cases with ⟨_, _, h⟩ | ⟨_, _, h⟩ | ⟨_, _, _, _, h⟩ <;> rw [h]
@[simp] theorem State.awaitRequest_cspMaskSet : s.awaitRequest.cspMaskSet = s.cspMaskSet := by
  rcases s.awaitRequest_cases with ⟨_, _, h⟩ | ⟨_, _, h⟩ | ⟨_, _, _, _, h⟩ <;> rw [h]

end Sys2Proof.Machine
end

