-- ==== Sys2Proof/Laws/Ops.lean ====
section
/-! SUPPORT. Laws/Ops.lean: what the shared operations, a meaning and a step can do, said once. -/
namespace Sys2Proof.Machine

/-- Everything the length check can answer. -/
theorem withLengthChecked_cases (hdr : Nat) (B : Bytes) (k : Response) :
    (B.length < hdr ∧ withLengthChecked hdr B k = raise .tooShort) ∨
    (hdr ≤ B.length ∧ maxBuf < B.length ∧ withLengthChecked hdr B k = raise .tooLong) ∨
    (hdr ≤ B.length ∧ B.length ≤ maxBuf ∧ withLengthChecked hdr B k = k) := by
  unfold withLengthChecked
  split
  · exact .inl ⟨‹_›, rfl⟩
  · split
    · exact .inr (.inl ⟨by omega, ‹_›, rfl⟩)
    · exact .inr (.inr ⟨by omega, by omega, rfl⟩)

/-- A meaning is the operation function of 10_state.md R41 and one `respond`. -/
theorem exec_eq_respond (i : Instr) (s : State) : exec i s = .next (s.respond (operation s.cspMaskSet i)) := by
  cases i <;> rfl

/-- A request is answered with the value of the operation function and with nothing else. -/
theorem answers_iff (i : Instr) (s : State) (r : Response) : Answers i s r ↔ operation s.cspMaskSet i = r := by
  unfold Answers
  rw [exec_eq_respond]
  simp [State.respond]

/-- Everything a step that goes on can do. -/
theorem step_cases {s t : State} (h : step s = .next t) :
    (s.resetAsserted = true ∧ t = s.takeReset) ∨
    (s.resetAsserted = false ∧ s.phase = .idle ∧ t = s.transferResponse.awaitRequest) ∨
    (s.resetAsserted = false ∧ ∃ r i, s.phase = .busy r ∧ decode r = .ok i ∧
      t = s.transferResponse.respond (operation s.cspMaskSet i)) := by
  unfold step at h
  split at h
  · exact .inl ⟨‹_›, by injection h with h; exact h.symm⟩
  · rename_i hr
    have hr : s.resetAsserted = false := by simpa using hr
    split at h
    · exact .inr (.inl ⟨hr, ‹_›, by injection h with h; exact h.symm⟩)
    · rename_i r hp
      split at h
      · rename_i i hd
        rw [exec_eq_respond, State.transferResponse_cspMaskSet] at h
        exact .inr (.inr ⟨hr, r, i, hp, hd, by injection h with h; exact h.symm⟩)
      · cases h

/-- One step of a run that goes on, for any machine. -/
theorem run_succ_of_step (M : Host.Core) (k : Nat) (s t : M.State) (h : M.step s = .next t) :
    M.run (k + 1) s = M.run k t := by
  rw [Host.Core.run, h]

/-- One step of a run of the block that goes on. -/
theorem run_succ {s t : State} (k : Nat) (h : step s = .next t) :
    Host.Core.run Sys2Proof.core (k + 1) s = Host.Core.run Sys2Proof.core k t :=
  run_succ_of_step Sys2Proof.core k s t h

end Sys2Proof.Machine

namespace Sys2Proof

/-- The range duty, field by field (70_reset_and_hazards.md R216). -/
theorem CspSerIn.inRange_iff (S : CspSerIn) : S.inRange = true ↔ S.priority < 2 ∧ S.source < 32 ∧
    S.destination < 32 ∧ S.destinationPort < 64 ∧ S.sourcePort < 64 ∧ S.reserved < 16 := by
  simp [CspSerIn.inRange, and_assoc]

end Sys2Proof
end

