-- ==== Sys2Proof/Laws/PerInstr.lean ====
section
/-! SUPPORT. Laws/PerInstr.lean: statements for all instructions, one lemma per constructor. `EncodeOp`: the `op` of an
encoded request is its row's (30_encoding.md R70), and its operand record is not cut short. -/
namespace Sys2Proof.Laws

/-- The `op` of an instruction's row in the table of R70. -/
def tableOp : Instr → BitVec 2
  | .sppParse _ => 0b00#2
  | .sppSerialize _ => 0b01#2
  | .cspParse _ => 0b10#2
  | .cspSerialize _ => 0b11#2

/-- The encoded request carries its row's `op` and at least the fixed bytes of its operand record. -/
def EncodeOp.Statement (i : Instr) : Prop :=
  (encode i).op = tableOp i ∧ fixedOperandBytes (tableOp i) ≤ (encode i).operands.length

theorem EncodeOp.sppParse (inp : ParseIn) : EncodeOp.Statement (.sppParse inp) :=
  ⟨rfl, by simp [tableOp, fixedOperandBytes, opFormat, opDirection]⟩

theorem EncodeOp.sppSerialize (inp : SppSerIn) : EncodeOp.Statement (.sppSerialize inp) :=
  ⟨rfl, by simp [encode, encodeSppSerIn, tableOp, fixedOperandBytes, opFormat, opDirection]⟩

theorem EncodeOp.cspParse (inp : ParseIn) : EncodeOp.Statement (.cspParse inp) :=
  ⟨rfl, by simp [tableOp, fixedOperandBytes, opFormat, opDirection]⟩

theorem EncodeOp.cspSerialize (inp : CspSerIn) : EncodeOp.Statement (.cspSerialize inp) :=
  ⟨rfl, by simp [encode, encodeCspSerIn, tableOp, fixedOperandBytes, opFormat, opDirection]⟩

end Sys2Proof.Laws
end

