-- ==== Sys2Proof/Tests/Slice0.lean ====
section
/-! SUPPORT. Tests/Slice0.lean: decoding of requests written out from the spec, the well-formedness smoke test, one step on
small states for each instruction (expected values from 95_test_vectors.md), and a state and operands that meet the
hypotheses of each statement of Certificates/Slice0/Obligations.lean. -/
namespace Sys2Proof.Tests

open Machine

/-- A block built with `m` that holds request `i`. -/
def held (m : BitVec 6) (i : Instr) : State :=
  { phase := .busy (encode i), reqQueue := [], rspQueue := [], rspReady := false, rspTaken := [], readyDelay := 0,
    resetCount := 0, resetAsserted := false, cspMaskSet := m }

/-- What a step leaves on the response channel. -/
def stepResponses (s : State) : Option (List Response) :=
  match step s with
  | .next t => some t.rspQueue
  | _ => none

/-- The record of vector W2. -/
def w2 : SppSerIn := ⟨0, .telecommand, 0, 1, .firstSegment, 1, 3, [0xDE#8, 0xAD#8, 0xBE#8, 0xEF#8]⟩

/-- The record of vector W4. -/
def w4 : CspSerIn := ⟨1, 0, 8, 38, 43, 12, false, false, false, false, [0x01#8, 0x02#8, 0x03#8]⟩

/-- A Space Packet record with every field 0 but those given. -/
def sppZero (version apid : Nat) (payload : Bytes) : SppSerIn :=
  ⟨version, .telemetry, 0, apid, .continuation, 0, 0, payload⟩

/-- A CSP record with every field 0 but those given. -/
def cspZero (priority source reserved : Nat) (payload : Bytes) : CspSerIn :=
  ⟨priority, source, 0, 0, 0, reserved, false, false, false, false, payload⟩

/-! ## Decoding: requests written out from R70 and the operand records of R27 to R29 -/

theorem test_decode_sppParse : decode ⟨0b00#2, [0xE0#8, 0x01#8]⟩ = .ok (.sppParse ⟨[0xE0#8, 0x01#8]⟩) := by decide

theorem test_decode_sppSerialize :
    decode ⟨0b01#2, [0x00#8, 0x07#8, 0x01#8, 0x00#8, 0x01#8, 0x07#8, 0xFF#8, 0x02#8, 0x3F#8, 0xFF#8, 0x00#8, 0x03#8, 0xAA#8]⟩ =
      .ok (.sppSerialize ⟨7, .telecommand, 1, 2047, .lastSegment, 16383, 3, [0xAA#8]⟩) := by decide

theorem test_decode_cspParse : decode ⟨0b10#2, [0x40#8]⟩ = .ok (.cspParse ⟨[0x40#8]⟩) := by decide

theorem test_decode_cspSerialize :
    decode ⟨0b11#2, [0x00#8, 0x01#8, 0x00#8, 0x20#8, 0x00#8, 0x08#8, 0x00#8, 0x26#8, 0x00#8, 0x2B#8, 0xFF#8, 0xFF#8,
        0x01#8, 0x00#8, 0x01#8, 0x00#8, 0xBB#8]⟩ =
      .ok (.cspSerialize ⟨1, 32, 8, 38, 43, 65535, true, false, true, false, [0xBB#8]⟩) := by decide

theorem test_tableWords_select_the_four_rows :
    [decodeTableWord 8 0b00, decodeTableWord 8 0b01, decodeTableWord 8 0b10, decodeTableWord 8 0b11] =
      [some (.sppParse ⟨[]⟩), some (.sppSerialize (sppZero 0 0 [])), some (.cspParse ⟨[]⟩),
       some (.cspSerialize (cspZero 0 0 0 []))] := by decide

/-! ## WellFormed refuses each field that does not fit 16 bits -/

theorem test_wf_accepts_the_largest :
    WellFormed (.sppSerialize ⟨65535, .telecommand, 65535, 65535, .unsegmented, 65535, 65535, []⟩) ∧
    WellFormed (.cspSerialize ⟨65535, 65535, 65535, 65535, 65535, 65535, true, true, true, true, []⟩) := by decide

theorem test_wf_refuses_spp_version : ¬ WellFormed (.sppSerialize { w2 with version := 65536 }) := by decide
theorem test_wf_refuses_spp_secondaryHeaderFlag :
    ¬ WellFormed (.sppSerialize { w2 with secondaryHeaderFlag := 65536 }) := by decide
theorem test_wf_refuses_spp_apid : ¬ WellFormed (.sppSerialize { w2 with apid := 65536 }) := by decide
theorem test_wf_refuses_spp_sequenceCount : ¬ WellFormed (.sppSerialize { w2 with sequenceCount := 65536 }) := by decide
theorem test_wf_refuses_spp_dataLength : ¬ WellFormed (.sppSerialize { w2 with dataLength := 65536 }) := by decide
theorem test_wf_refuses_csp_priority : ¬ WellFormed (.cspSerialize { w4 with priority := 65536 }) := by decide
theorem test_wf_refuses_csp_source : ¬ WellFormed (.cspSerialize { w4 with source := 65536 }) := by decide
theorem test_wf_refuses_csp_destination : ¬ WellFormed (.cspSerialize { w4 with destination := 65536 }) := by decide
theorem test_wf_refuses_csp_destinationPort :
    ¬ WellFormed (.cspSerialize { w4 with destinationPort := 65536 }) := by decide
theorem test_wf_refuses_csp_sourcePort : ¬ WellFormed (.cspSerialize { w4 with sourcePort := 65536 }) := by decide
theorem test_wf_refuses_csp_reserved : ¬ WellFormed (.cspSerialize { w4 with reserved := 65536 }) := by decide

/-! ## One step for each instruction -/

/-- Vector W1. -/
theorem test_sppParse_w1 :
    stepResponses (held 0#6 (.sppParse
        ⟨[0x10#8, 0x01#8, 0x40#8, 0x01#8, 0x00#8, 0x03#8, 0xDE#8, 0xAD#8, 0xBE#8, 0xEF#8]⟩)) =
      some [⟨.ok, .spacePacket ⟨0#3, .telecommand, 0#1, 1#11, .firstSegment, 1#14, 3#11,
        [0xDE#8, 0xAD#8, 0xBE#8, 0xEF#8]⟩⟩] := by decide

/-- Vector P7: field boundaries. -/
theorem test_sppParse_p7 :
    stepResponses (held 0#6 (.sppParse ⟨[0x07#8, 0xFF#8, 0x3F#8, 0xFF#8, 0x07#8, 0xFF#8]⟩)) =
      some [⟨.ok, .spacePacket ⟨0#3, .telemetry, 0#1, 2047#11, .continuation, 16383#14, 2047#11, []⟩⟩] := by decide

/-- Vector S3: every numeric field out of range. -/
theorem test_sppSerialize_s3 :
    stepResponses (held 0#6 (.sppSerialize ⟨8, .telemetry, 3, 0x1801, .unsegmented, 0xC005, 0xF803, []⟩)) =
      some [⟨.ok, .bytes [0x08#8, 0x01#8, 0xC0#8, 0x05#8, 0x00#8, 0x03#8]⟩] := by decide

/-- Vector W2. -/
theorem test_sppSerialize_w2 :
    stepResponses (held 0#6 (.sppSerialize w2)) =
      some [⟨.ok, .bytes [0x10#8, 0x01#8, 0x40#8, 0x01#8, 0x00#8, 0x03#8, 0xDE#8, 0xAD#8, 0xBE#8, 0xEF#8]⟩] := by decide

/-- Vector Q7: a mixed pattern across every boundary. -/
theorem test_cspParse_q7 :
    stepResponses (held 0#6 (.cspParse ⟨[0x41#8, 0x23#8, 0x45#8, 0x67#8]⟩)) =
      some [⟨.ok, .cspPacket ⟨1#1, 0#5, 18#5, 13#6, 5#6, 6#4, false, true, true, true, []⟩⟩] := by decide

/-- Vector W5: one byte short. -/
theorem test_cspParse_w5 :
    stepResponses (held 0#6 (.cspParse ⟨[0x40#8, 0x89#8, 0xAB#8]⟩)) = some [⟨.tooShort, .none⟩] := by decide

/-- Vector W4, on a block whose `CSP_MASK_SET` is not known. -/
theorem test_cspSerialize_w4_any_build :
    stepResponses (held Config.cspMaskSet (.cspSerialize w4)) =
      some [⟨.ok, .bytes [0x40#8, 0x89#8, 0xAB#8, 0xC0#8, 0x01#8, 0x02#8, 0x03#8]⟩] := by decide

/-- Vector T18 under the four mask sets of its table. -/
theorem test_cspSerialize_t18_by_mask_set :
    [0b000000#6, 0b010000#6, 0b000001#6, 0b111111#6].map (fun m =>
        stepResponses (held m (.cspSerialize (cspZero 0 32 16 [])))) =
      [some [⟨.ok, .bytes [0x40#8, 0x00#8, 0x01#8, 0x00#8]⟩], some [⟨.ok, .bytes [0x00#8, 0x00#8, 0x01#8, 0x00#8]⟩],
       some [⟨.ok, .bytes [0x40#8, 0x00#8, 0x00#8, 0x00#8]⟩], some [⟨.ok, .bytes [0x00#8, 0x00#8, 0x00#8, 0x00#8]⟩]] := by
  decide

/-- Vector B7: an overlap is ORed, with no carry. -/
theorem test_pack_b7 :
    pack [(⟨true, 4, 4⟩ : FieldDesc Bool), ⟨false, 0, 4⟩] 8 (fun f => if f then 0x1 else 0x13) (fun f => f) = 0x13#8 := by
  decide

/-- A table word runs as the first operation after reset. -/
theorem test_first_step_runs_a_table_word :
    stepResponses (State.reset.withFetchWord 8 0b01) =
      some [⟨.ok, .bytes [0x00#8, 0x00#8, 0x00#8, 0x00#8, 0x00#8, 0x00#8]⟩] := by decide

/-! ## A state and operands for the hypotheses of each statement -/

/-- An idle block with two requests presented. -/
def presented : State :=
  { phase := .idle, reqQueue := [encode (.cspSerialize w4), encode (.sppParse ⟨[]⟩)], rspQueue := [], rspReady := false,
    rspTaken := [], readyDelay := 0, resetCount := 0, resetAsserted := false, cspMaskSet := 0b101010#6 }

/-- `presented` on a block three steps from ready after its second reset, with a response that the host is ready to take. -/
def presentedAfterReset : State :=
  { presented with rspQueue := [⟨.tooShort, .none⟩], rspReady := true, readyDelay := 3, resetCount := 2 }

theorem witness_EncodedRequestDecodesToItself :
    WellFormed (.sppSerialize { w2 with apid := 65535 }) ∧ WellFormed (.cspSerialize { w4 with reserved := 65535 }) ∧
    WellFormed (.sppParse ⟨[]⟩) ∧ WellFormed (.cspParse ⟨[0#8]⟩) := by decide

theorem witness_DecodedRequestsAreWellFormed :
    decode (encode (.cspSerialize w4)) = .ok (.cspSerialize w4) := by decide

theorem witness_EveryOpSelectsItsOperation : 16 ≤ (List.replicate 16 0xFF#8 : Bytes).length := by decide

theorem witness_DecoderRefusesExactlyRecordsCutShort :
    decode ⟨0b01#2, List.replicate 11 0#8⟩ = .error .sppSerInCutShort ∧
    decode ⟨0b11#2, List.replicate 15 0#8⟩ = .error .cspSerInCutShort ∧
    (decode ⟨0b01#2, List.replicate 12 0#8⟩).toOption.isSome = true ∧
    (decode ⟨0b11#2, List.replicate 16 0#8⟩).toOption.isSome = true := by decide

theorem witness_StepRunsTheHeldRequest :
    (held 0#6 (.sppSerialize w2)).resetAsserted = false ∧
    (held 0#6 (.sppSerialize w2)).phase = .busy (encode (.sppSerialize w2)) ∧
    decode (encode (.sppSerialize w2)) = .ok (.sppSerialize w2) := by decide

theorem witness_StepRefusesAHeldRequestCutShort :
    decode ⟨0b11#2, []⟩ = .error .cspSerInCutShort ∧
    ({ presented with phase := .busy ⟨0b11#2, []⟩ } : State).resetAsserted = false := by decide

theorem witness_IdleStepAcceptsOrWaits :
    presented.resetAsserted = false ∧ presented.phase = .idle ∧ presented.readyDelay = 0 ∧
    presented.reqQueue = encode (.cspSerialize w4) :: [encode (.sppParse ⟨[]⟩)] ∧
    ({ presented with reqQueue := [] } : State).reqQueue = [] ∧
    presentedAfterReset.resetAsserted = false ∧ presentedAfterReset.phase = .idle ∧
    presentedAfterReset.readyDelay = 2 + 1 := by decide

theorem witness_RequestTransfersExactlyWhenValidAndReady :
    step presented = .next presented.accept ∧ presented.reqValid = true ∧ presented.reqReady = true ∧
    presentedAfterReset.reqReady = false ∧ presented.hostReset.reqReady = false ∧
    (held 0#6 (.sppSerialize w2)).reqReady = false := by
  refine ⟨?_, by decide, by decide, by decide, by decide, by decide⟩
  simp [step, presented, State.transferResponse, State.awaitRequest]

theorem witness_ResponseTransfersExactlyWhenValidAndReady :
    step presentedAfterReset =
      .next { presentedAfterReset with rspQueue := [], rspTaken := [⟨.tooShort, .none⟩], readyDelay := 2 } ∧
    presentedAfterReset.rspValid = true ∧ presentedAfterReset.rspReady = true ∧
    (presentedAfterReset.hostReady false).rspReady = false ∧ presentedAfterReset.hostReset.rspValid = false := by
  refine ⟨?_, by decide, by decide, by decide, by decide⟩
  simp [step, presentedAfterReset, presented, State.transferResponse, State.awaitRequest]

theorem witness_AssertedResetDiscardsTheHeldRequest :
    (held 0#6 (.cspParse ⟨[]⟩)).hostReset.resetAsserted = true := by decide

theorem witness_StepKeepsResponsesLegal :
    ({ presented with rspQueue := [⟨.tooLong, .none⟩, ⟨.ok, .bytes [0#8, 0#8, 0#8, 0#8]⟩] } : State).responsesLegal = true ∧
    stepResponses { presented with rspQueue := [⟨.tooLong, .none⟩] } = some [⟨.tooLong, .none⟩] := by decide

theorem witness_StepKeepsTheMaskSet : step presented = .next presented.accept :=
  witness_RequestTransfersExactlyWhenValidAndReady.1

theorem witness_StepAnswersInOrderOfAcceptance :
    presented.resetAsserted = false ∧ step presented = .next presented.accept :=
  ⟨rfl, witness_RequestTransfersExactlyWhenValidAndReady.1⟩

theorem presented_answerable : presented.answerable := by
  intro r hr
  simp only [State.outstanding, presented, List.mem_cons, List.not_mem_nil, or_false] at hr
  rcases hr with rfl | rfl
  · exact ⟨.cspSerialize w4, by decide⟩
  · exact ⟨.sppParse ⟨[]⟩, by decide⟩

theorem witness_EveryPresentedRequestIsAnswered :
    presented.resetAsserted = false ∧ presented.phase = .idle ∧ presented.rspReady = false ∧ presented.answerable :=
  ⟨rfl, rfl, rfl, presented_answerable⟩

theorem witness_EveryPresentedRequestIsDelivered :
    presentedAfterReset.resetAsserted = false ∧ presentedAfterReset.phase = .idle ∧
    presentedAfterReset.rspReady = true ∧ presentedAfterReset.answerable :=
  ⟨rfl, rfl, rfl, presented_answerable⟩

theorem witness_ResponseIsAFunctionOfTheRequest :
    presented.cspMaskSet = (held 0b101010#6 (.sppParse ⟨[]⟩)).cspMaskSet ∧
    presented ≠ held 0b101010#6 (.sppParse ⟨[]⟩) := by decide

theorem witness_ParseErrorIsAResponseWithoutBody :
    Answers (.sppParse ⟨[]⟩) presented ⟨.tooShort, .none⟩ := (answers_iff _ _ _).2 (by decide)

theorem witness_ImpossibleCodesAreNeverReturned :
    Answers (.cspParse ⟨[0#8, 0#8, 0#8, 0#8]⟩) presented
      ⟨.ok, .cspPacket ⟨0#1, 0#5, 0#5, 0#6, 0#6, 0#4, false, false, false, false, []⟩⟩ :=
  (answers_iff _ _ _).2 (by decide)

theorem witness_UnpackShiftsAndMasks :
    CspDesc.priority.width = 1 ∧
    (∀ j, SppDesc.version.lo ≤ j → j < SppDesc.version.lo + SppDesc.version.width →
      (0#48).getLsbD j = (0x1FFFFFFFFFFF#48).getLsbD j) := by
  refine ⟨rfl, fun j h1 h2 => ?_⟩
  have h1 : 45 ≤ j := h1
  have h2 : j < 48 := h2
  interval_cases j <;> decide

theorem witness_MaskSetExtremesAreTheTwoPackers :
    (held 0b111111#6 (.cspSerialize w4)).cspMaskSet = 0b111111#6 ∧
    (held 0b000000#6 (.cspSerialize w4)).cspMaskSet = 0b000000#6 := by decide

theorem witness_MaskedPackClearsUncoveredBits :
    (covered sppLayout).testBit 11 = false ∧ (covered sppLayout).testBit 15 = false ∧
    (covered cspLayout).testBit 31 = false := by decide

theorem witness_InRangePackIsTheSumUnderAnyMask :
    sppLayout.WellFormed 48 ∧ ∀ f ∈ sppLayout, sppValues w2 f.name < 2 ^ f.width := by decide

theorem witness_UnpackAfterMaskedPackTruncates : cspLayout.WellFormed 32 ∧ CspDesc.source ∈ cspLayout := by decide

/-- The value map that unpacks W3's header word. -/
def w3Values : CspField → Nat
  | .priority => 1
  | .destination => 8
  | .destinationPort => 38
  | .sourcePort => 43
  | .reserved => 12
  | .source | .hmac | .xtea | .rdp | .crc => 0

theorem witness_PackAfterUnpackKeepsCoveredBits :
    cspLayout.WellFormed 32 ∧ ∀ f ∈ cspLayout, w3Values f.name = (unpack 0xC089ABC0#32 f).toNat := by decide

theorem witness_HeaderIsReadBigEndian :
    4 ≤ ([0x40#8, 0x89#8, 0xAB#8, 0xC0#8] : Bytes).length ∧ 3 < 4 ∧
    ([0x40#8, 0x89#8, 0xAB#8, 0xC0#8] : Bytes)[3]? = some 0xC0#8 ∧ 7 < 8 := by decide

theorem witness_SppParseReturnsTheHeaderFields :
    (List.replicate 65529 0#8 : Bytes).length ≤ 65529 ∧ (0x1F#8).extractLsb' 5 3 = 0#3 :=
  ⟨by rw [List.length_replicate], by decide⟩

theorem witness_SppMultiByteFieldsAreBigEndian :
    ([] : Bytes).length ≤ 65529 ∧ (0x07#8).extractLsb' 5 3 = 0#3 := by decide

/-- Vectors W6, W8, P11 and P12: the boundary lengths. -/
theorem witness_SppParseChecksTheLengthFirst :
    (sppParse (List.replicate 5 0#8)).status = .tooShort ∧ (sppParse (List.replicate 6 0#8)).status = .ok ∧
    ¬ (List.replicate 65535 0xE0#8 : Bytes).length < 6 ∧ 65535 < (List.replicate 65536 0xE0#8 : Bytes).length := by
  refine ⟨by decide, by decide, ?_, ?_⟩ <;> rw [List.length_replicate] <;> omega

/-- Vectors P1, W9 and P4, and the boundary lengths. -/
theorem witness_SppParseRejectsExactlyNonzeroVersions :
    5 ≤ (List.replicate 5 0#8 : Bytes).length ∧ (List.replicate 65534 0#8 : Bytes).length ≤ 65534 ∧
    (sppParse (0x00#8 :: List.replicate 5 0#8)).status = .ok ∧
    (sppParse (0x20#8 :: List.replicate 5 0#8)).status = .invalidVersion ∧
    (sppParse (0x80#8 :: List.replicate 5 0#8)).status = .invalidVersion := by
  refine ⟨by decide, ?_, by decide, by decide, by decide⟩
  rw [List.length_replicate]

theorem witness_SppParseUnpacksUncheckedFields :
    (sppParse (List.replicate 6 0#8)).body =
      .spacePacket ⟨0#3, .telemetry, 0#1, 0#11, .continuation, 0#14, 0#11, []⟩ := by decide

theorem witness_SppParsePayloadIsTheRemainder :
    (sppParse (List.replicate 7 0#8)).status = .ok := by decide

/-- Vector P5: only unstored bits set in byte 4. -/
theorem witness_SppParseIgnoresTheUnstoredBits :
    0xF8#8 &&& 0x07#8 = 0x00#8 &&& 0x07#8 ∧ 0xF8#8 ≠ 0x00#8 := by decide

theorem witness_SppSerializeOutputIsHeaderThenPayload : 3 < w2.dataField.length := by decide

/-- The three cases of R136: vectors S12, S4 and S11. -/
theorem witness_SppSerializeThenParse :
    65529 < (sppZero 0 0 (List.replicate 65530 0#8)).dataField.length ∧
    ¬ 65529 < (sppZero 1 0 (List.replicate 65529 0#8)).dataField.length ∧ (sppZero 1 0 []).version % 8 ≠ 0 ∧
    (sppZero 8 0 []).version % 8 = 0 := by
  refine ⟨?_, ?_, by decide, by decide⟩ <;> unfold sppZero <;> rw [List.length_replicate] <;> omega

/-- Vectors W8 and P2: byte 4's unstored bits clear, and set. -/
theorem witness_SppParseThenSerialize :
    Answers (.sppParse ⟨[0x10#8, 0x01#8, 0x40#8, 0x01#8, 0x00#8, 0x03#8]⟩) presented
      ⟨.ok, .spacePacket ⟨0#3, .telecommand, 0#1, 1#11, .firstSegment, 1#14, 3#11, []⟩⟩ ∧
    Answers (.sppParse ⟨[0x1F#8, 0xFF#8, 0xFF#8, 0xFF#8, 0xFF#8, 0xFF#8]⟩) presented
      ⟨.ok, .spacePacket ⟨0#3, .telecommand, 1#1, 2047#11, .unsegmented, 16383#14, 2047#11, []⟩⟩ :=
  ⟨(answers_iff _ _ _).2 (by decide), (answers_iff _ _ _).2 (by decide)⟩

theorem witness_SppRecordsRoundTrip :
    (⟨0#3, .telemetry, 1#1, 5#11, .lastSegment, 9#14, 0#11, List.replicate 65529 0#8⟩ : SpacePacket).version = 0#3 ∧
    (List.replicate 65529 0#8 : Bytes).length ≤ 65529 ∧
    Answers (.sppParse ⟨List.replicate 6 0#8⟩) presented
      ⟨.ok, .spacePacket ⟨0#3, .telemetry, 0#1, 0#11, .continuation, 0#14, 0#11, []⟩⟩ :=
  ⟨rfl, by rw [List.length_replicate], (answers_iff _ _ _).2 (by decide)⟩

theorem witness_CspParseReturnsTheHeaderFields : (List.replicate 65531 0#8 : Bytes).length ≤ 65531 := by
  rw [List.length_replicate]

/-- Vectors W5, W7, Q10 and Q11: the boundary lengths. -/
theorem witness_CspParseChecksOnlyTheLength :
    (cspParse (List.replicate 3 0#8)).status = .tooShort ∧ (cspParse (List.replicate 4 0xFF#8)).status = .ok ∧
    (List.replicate 65535 0xFF#8 : Bytes).length ≤ 65535 ∧ 65535 < (List.replicate 65536 0xFF#8 : Bytes).length := by
  refine ⟨by decide, by decide, ?_, ?_⟩ <;> rw [List.length_replicate] <;> omega

/-- Vector T3: source bit 5 reaches the priority bit; and the highest bit that is not dropped. -/
theorem witness_CspUnmaskedBitsSpillUpwards :
    CspDesc.source ∈ cspLayout ∧ cspMasked 0b000000#6 CspDesc.source.name = false ∧ CspDesc.source.lo + 6 ≤ 31 ∧
    (cspValues (cspZero 0 32 0 []) CspDesc.source.name).testBit 5 = true ∧
    (cspValues (cspZero 0 64 0 []) CspDesc.source.name).testBit 6 = true := by decide

/-- Vector T1: every field at its maximum. -/
theorem witness_CspInRangeSerializeIgnoresTheMaskSet :
    (⟨1, 31, 31, 63, 63, 15, true, true, true, true, []⟩ : CspSerIn).inRange = true ∧
    (cspZero 0 32 0 []).inRange = false := by decide

theorem witness_CspSerializeOutputIsHeaderThenPayload : 2 < w4.data.length := by decide

/-- Vectors T20 and T19, in range and out of range. -/
theorem witness_CspSerializeThenParse :
    65531 < (cspZero 0 0 0 (List.replicate 65532 0#8)).data.length ∧
    (cspZero 0 0 0 (List.replicate 65531 0#8)).data.length ≤ 65531 ∧ (cspZero 1 31 15 []).inRange = true := by
  refine ⟨?_, ?_, by decide⟩ <;> unfold cspZero <;> rw [List.length_replicate] <;> omega

/-- Vectors W7 and Q3: byte 0 below 0x80, and at 0x80. -/
theorem witness_CspParseThenSerialize :
    Answers (.cspParse ⟨[0x40#8, 0x89#8, 0xAB#8, 0xC0#8]⟩) presented
      ⟨.ok, .cspPacket ⟨1#1, 0#5, 8#5, 38#6, 43#6, 12#4, false, false, false, false, []⟩⟩ ∧
    Answers (.cspParse ⟨[0x80#8, 0x00#8, 0x00#8, 0x00#8]⟩) presented
      ⟨.ok, .cspPacket ⟨0#1, 0#5, 0#5, 0#6, 0#6, 0#4, false, false, false, false, []⟩⟩ :=
  ⟨(answers_iff _ _ _).2 (by decide), (answers_iff _ _ _).2 (by decide)⟩

theorem witness_ParsedRecordsCanBePresentedAgain :
    Answers (.sppParse ⟨List.replicate 6 0#8⟩) presented
      ⟨.ok, .spacePacket ⟨0#3, .telemetry, 0#1, 0#11, .continuation, 0#14, 0#11, []⟩⟩ ∧
    Answers (.cspParse ⟨List.replicate 4 0#8⟩) presented
      ⟨.ok, .cspPacket ⟨0#1, 0#5, 0#5, 0#6, 0#6, 0#4, false, false, false, false, []⟩⟩ :=
  ⟨(answers_iff _ _ _).2 (by decide), (answers_iff _ _ _).2 (by decide)⟩

end Sys2Proof.Tests
end

/-! PROOFS. What 10_state.md claims about the answer to a request. -/
namespace Sys2Proof.Machine

/-- The operation function is total: every request is answered with its value under the build's `CSP_MASK_SET`
(10_state.md R41), so the state bears on the answer only through that parameter. -/
theorem answers_operation (i : Instr) (s : State) : Answers i s (operation s.cspMaskSet i) :=
  (answers_iff i s _).2 rfl

/-- Settles O19: both states answer with the operation function's value under their common `CSP_MASK_SET`. -/
theorem responseIsAFunctionOfTheRequest : Obligations.ResponseIsAFunctionOfTheRequest := by
  intro i s t hmask
  have ht : Answers i t (operation s.cspMaskSet i) := hmask ▸ answers_operation i t
  exact ⟨operation s.cspMaskSet i, answers_operation i s, ht⟩

end Sys2Proof.Machine

/-! PROOFS. What 20_memory.md claims about the byte order of the SPP header fields. -/
namespace Sys2Proof.Machine

/-- `++` of words in the arithmetic of `bigEndian`: the earlier word is the more significant. -/
theorem toNat_append_eq_mul_add {m n : Nat} (x : BitVec m) (y : BitVec n) :
    (x ++ y).toNat = x.toNat * 2 ^ n + y.toNat := by
  rw [BitVec.toNat_append, ← Nat.shiftLeft_add_eq_or_of_lt y.isLt, Nat.shiftLeft_eq]

/-- A field at bit 0 that is wider than the later word ends in the low bits of the earlier one. -/
theorem extractLsb'_append_low {m n : Nat} (k : Nat) (x : BitVec m) (y : BitVec n) :
    (x ++ y).extractLsb' 0 (k + n) = x.extractLsb' 0 k ++ y := by
  ext i hi
  rw [BitVec.getElem_extractLsb', BitVec.getElem_append, Nat.zero_add, BitVec.getLsbD_append]
  by_cases hlow : i < n
  · rw [if_pos hlow, dif_pos hlow, BitVec.getLsbD_eq_getElem]
  · rw [if_neg hlow, dif_neg hlow, BitVec.getElem_extractLsb', Nat.zero_add]

/-- The SPP header is three big-endian 16-bit words, the first one most significant (20_memory.md R53). -/
theorem memRead_sppHeader (b0 b1 b2 b3 b4 b5 : Byte) (payload : Bytes) :
    memRead (b0 :: b1 :: b2 :: b3 :: b4 :: b5 :: payload) 0 6 = (b0 ++ b1) ++ (b2 ++ b3) ++ (b4 ++ b5) := by
  apply BitVec.eq_of_toNat_eq
  rw [memRead_toNat _ 0 6 (by simp)]
  simp only [List.drop_zero, List.take_succ_cons, List.take_zero, bigEndian_cons, bigEndian_nil, List.length_cons,
    List.length_nil, toNat_append_eq_mul_add]
  omega

section HeaderWords
variable {ν : Type} (x y z : BitVec 16) (f : FieldDesc ν)

/-- A field at bit 32 or above lies in the first of a header's three words. -/
theorem unpack_firstWord (h : 32 ≤ f.lo) : unpack (x ++ y ++ z) f = x.extractLsb' (f.lo - 32) f.width := by
  unfold unpack
  rw [BitVec.extractLsb'_append_eq_of_le (by omega), BitVec.extractLsb'_append_eq_of_le (by omega), Nat.sub_sub]

/-- A field within bits 31 to 16 lies in the second of a header's three words. -/
theorem unpack_secondWord (hlo : 16 ≤ f.lo) (hhi : f.lo + f.width ≤ 32) :
    unpack (x ++ y ++ z) f = y.extractLsb' (f.lo - 16) f.width := by
  unfold unpack
  rw [BitVec.extractLsb'_append_eq_of_le hlo, BitVec.extractLsb'_append_eq_of_add_le (by omega)]

/-- A field below bit 16 lies in the last of a header's three words. -/
theorem unpack_thirdWord (h : f.lo + f.width ≤ 16) : unpack (x ++ y ++ z) f = z.extractLsb' f.lo f.width :=
  BitVec.extractLsb'_append_eq_of_add_le h

end HeaderWords

/-- A buffer of accepted length whose version bits are 0 is answered with the record of its header
(41_space_packet.md R121 to R123). -/
theorem sppParse_of_versionZero (B : Bytes) (hmin : hdrSpp ≤ B.length) (hmax : B.length ≤ maxBuf)
    (hversion : unpack (memRead B 0 6) SppDesc.version = 0#3) :
    sppParse B = ⟨.ok, .spacePacket (spacePacketOf (memRead B 0 6) (B.drop hdrSpp))⟩ := by
  have hheader : sppParseHeader B (memRead B 0 6) =
      ⟨.ok, .spacePacket (spacePacketOf (memRead B 0 6) (B.drop hdrSpp))⟩ :=
    if_neg (by rw [hversion]; decide)
  rcases withLengthChecked_cases hdrSpp B (sppParseHeader B (memRead B 0 6)) with
    ⟨hshort, _⟩ | ⟨_, hlong, _⟩ | ⟨_, _, haccepted⟩
  · omega
  · omega
  · exact haccepted.trans hheader

/-- Settles O40: the header is three big-endian 16-bit words, and each of the fields is the low bits of one of them. -/
theorem sppMultiByteFieldsAreBigEndian : Obligations.SppMultiByteFieldsAreBigEndian := by
  intro b0 b1 b2 b3 b4 b5 payload s hlen hversion
  have hheader := memRead_sppHeader b0 b1 b2 b3 b4 b5 payload
  have hzero : unpack ((b0 ++ b1) ++ (b2 ++ b3) ++ (b4 ++ b5)) SppDesc.version = 0#3 := by
    rw [unpack_firstWord _ _ _ _ (by decide), BitVec.extractLsb'_append_eq_of_le (by decide)]
    exact hversion
  have hparse := sppParse_of_versionZero (b0 :: b1 :: b2 :: b3 :: b4 :: b5 :: payload)
    (Nat.le_add_left 6 payload.length) (Nat.add_le_add_right hlen 6) (hheader ▸ hzero)
  rw [hheader] at hparse
  refine ⟨_, (answers_iff _ _ _).2 hparse, ?apid, ?sequenceCount, ?dataLength⟩
  case apid =>
    exact (unpack_firstWord _ _ _ SppDesc.apid (by decide)).trans (extractLsb'_append_low 3 b0 b1)
  case sequenceCount =>
    exact (unpack_secondWord _ _ _ SppDesc.sequenceCount (by decide) (by decide)).trans
      (extractLsb'_append_low 6 b2 b3)
  case dataLength =>
    calc (unpack ((b0 ++ b1) ++ (b2 ++ b3) ++ (b4 ++ b5)) SppDesc.dataLength).toNat
      _ = (b4 ++ b5).toNat % 2 ^ 11 := by
        rw [unpack_thirdWord _ _ _ _ (by decide), BitVec.extractLsb'_toNat, Nat.shiftRight_zero]
      _ = (b4.toNat * 256 + b5.toNat) &&& 0x7FF := by
        rw [toNat_append_eq_mul_add]
        exact (Nat.and_two_pow_sub_one_eq_mod _ 11).symm

end Sys2Proof.Machine

/-! PROOFS. What 30_encoding.md claims about the bits of the CSP header fields. -/
namespace Sys2Proof.Machine

/-- The CSP header word is its four bytes, the first one most significant (20_memory.md R53). -/
theorem memRead_cspHeader (b0 b1 b2 b3 : Byte) (payload : Bytes) :
    memRead (b0 :: b1 :: b2 :: b3 :: payload) 0 4 = b0 ++ b1 ++ b2 ++ b3 := by
  apply BitVec.eq_of_toNat_eq
  rw [memRead_toNat _ 0 4 (by simp)]
  simp only [List.drop_zero, List.take_succ_cons, List.take_zero, bigEndian_cons, bigEndian_nil, List.length_cons,
    List.length_nil, toNat_append_eq_mul_add]
  omega

/-- A field that runs from bit `lo` of the later word into the earlier one: the low `k` bits of the earlier word, then
the top `j` bits of the later one. -/
theorem extractLsb'_append_across {m n : Nat} (lo k j : Nat) (x : BitVec m) (y : BitVec n) (hn : lo + j = n) :
    (x ++ y).extractLsb' lo (k + j) = x.extractLsb' 0 k ++ y.extractLsb' lo j := by
  ext i hi
  rw [BitVec.getElem_extractLsb', BitVec.getElem_append, BitVec.getLsbD_append]
  by_cases hlow : i < j
  · rw [if_pos (by omega), dif_pos hlow, BitVec.getElem_extractLsb']
  · rw [if_neg (by omega), dif_neg hlow, BitVec.getElem_extractLsb', Nat.zero_add,
      show lo + i - n = i - j by omega]

/-- `toBool` of a field one bit wide is that bit (30_encoding.md R80). -/
theorem toBool_extractLsb' {n : Nat} (x : BitVec n) (i : Nat) : toBool (x.extractLsb' i 1) = x.getLsbD i := by
  have hbit : (x.extractLsb' i 1).getLsbD 0 = x.getLsbD i := by simp
  rw [← hbit]
  generalize x.extractLsb' i 1 = b
  revert b
  decide

section CspHeaderBytes
variable {ν : Type} (b0 b1 b2 b3 : Byte) (f : FieldDesc ν)

/-- A field at bit 24 or above lies in byte 0 of a four-byte header. -/
theorem unpack_byte0 (h : 24 ≤ f.lo) :
    unpack (b0 ++ b1 ++ b2 ++ b3) f = b0.extractLsb' (f.lo - 24) f.width := by
  unfold unpack
  rw [BitVec.extractLsb'_append_eq_of_le (by omega), BitVec.extractLsb'_append_eq_of_le (by omega),
    BitVec.extractLsb'_append_eq_of_le (by omega), Nat.sub_sub, Nat.sub_sub]

/-- A field within bits 15 to 8 lies in byte 2 of a four-byte header. -/
theorem unpack_byte2 (hlo : 8 ≤ f.lo) (hhi : f.lo + f.width ≤ 16) :
    unpack (b0 ++ b1 ++ b2 ++ b3) f = b2.extractLsb' (f.lo - 8) f.width := by
  unfold unpack
  rw [BitVec.extractLsb'_append_eq_of_le hlo, BitVec.extractLsb'_append_eq_of_add_le (by omega)]

/-- A field below bit 8 lies in byte 3 of a four-byte header. -/
theorem unpack_byte3 (h : f.lo + f.width ≤ 8) :
    unpack (b0 ++ b1 ++ b2 ++ b3) f = b3.extractLsb' f.lo f.width :=
  BitVec.extractLsb'_append_eq_of_add_le h

/-- The destination is bit 0 of byte 0 and bits 7 to 4 of byte 1. -/
theorem unpack_cspDestination :
    unpack (b0 ++ b1 ++ b2 ++ b3) CspDesc.destination = b0.extractLsb' 0 1 ++ b1.extractLsb' 4 4 :=
  calc (b0 ++ b1 ++ b2 ++ b3).extractLsb' 20 5
    _ = (b0 ++ b1).extractLsb' 4 5 := by
      rw [BitVec.extractLsb'_append_eq_of_le (by decide), BitVec.extractLsb'_append_eq_of_le (by decide)]
    _ = b0.extractLsb' 0 1 ++ b1.extractLsb' 4 4 := extractLsb'_append_across 4 1 4 b0 b1 rfl

/-- The destination port is bits 3 to 0 of byte 1 and bits 7 and 6 of byte 2. -/
theorem unpack_cspDestinationPort :
    unpack (b0 ++ b1 ++ b2 ++ b3) CspDesc.destinationPort = b1.extractLsb' 0 4 ++ b2.extractLsb' 6 2 :=
  calc (b0 ++ b1 ++ b2 ++ b3).extractLsb' 14 6
    _ = (b0 ++ b1 ++ b2).extractLsb' 6 6 := BitVec.extractLsb'_append_eq_of_le (by decide)
    _ = (b0 ++ b1).extractLsb' 0 4 ++ b2.extractLsb' 6 2 := extractLsb'_append_across 6 4 2 (b0 ++ b1) b2 rfl
    _ = b1.extractLsb' 0 4 ++ b2.extractLsb' 6 2 := by
      rw [BitVec.extractLsb'_append_eq_of_add_le (by decide)]

/-- A one-bit flag below bit 8 is that bit of byte 3. -/
theorem toBool_unpack_byte3 (name : ν) (lo : Nat) (h : lo < 8) :
    toBool (unpack (b0 ++ b1 ++ b2 ++ b3) ⟨name, lo, 1⟩) = b3.getLsbD lo := by
  rw [unpack_byte3 _ _ _ _ ⟨name, lo, 1⟩ h, toBool_extractLsb']

/-- The record of a header word by the byte column of 30_encoding.md R78. -/
theorem cspPacketOf_headerBytes (payload : Bytes) :
    cspPacketOf (b0 ++ b1 ++ b2 ++ b3) payload =
      { priority := b0.extractLsb' 6 1
        source := b0.extractLsb' 1 5
        destination := b0.extractLsb' 0 1 ++ b1.extractLsb' 4 4
        destinationPort := b1.extractLsb' 0 4 ++ b2.extractLsb' 6 2
        sourcePort := b2.extractLsb' 0 6
        reserved := b3.extractLsb' 4 4
        hmac := b3.getLsbD 3
        xtea := b3.getLsbD 2
        rdp := b3.getLsbD 1
        crc := b3.getLsbD 0
        data := payload } := by
  unfold cspPacketOf
  congr 1
  case e_priority => exact unpack_byte0 _ _ _ _ CspDesc.priority (by decide)
  case e_source => exact unpack_byte0 _ _ _ _ CspDesc.source (by decide)
  case e_destination => exact unpack_cspDestination _ _ _ _
  case e_destinationPort => exact unpack_cspDestinationPort _ _ _ _
  case e_sourcePort => exact unpack_byte2 _ _ _ _ CspDesc.sourcePort (by decide) (by decide)
  case e_reserved => exact unpack_byte3 _ _ _ _ CspDesc.reserved (by decide)
  case e_hmac => exact toBool_unpack_byte3 _ _ _ _ _ 3 (by decide)
  case e_xtea => exact toBool_unpack_byte3 _ _ _ _ _ 2 (by decide)
  case e_rdp => exact toBool_unpack_byte3 _ _ _ _ _ 1 (by decide)
  case e_crc => exact toBool_unpack_byte3 _ _ _ _ _ 0 (by decide)

end CspHeaderBytes

/-- A buffer of accepted length is answered with the record of its header word (42_csp.md R151, R155). -/
theorem cspParse_of_acceptedLength (B : Bytes) (hmin : hdrCsp ≤ B.length) (hmax : B.length ≤ maxBuf) :
    cspParse B = ⟨.ok, .cspPacket (cspPacketOf (memRead B 0 4) (B.drop hdrCsp))⟩ := by
  rcases withLengthChecked_cases hdrCsp B (succeed (.cspPacket (cspPacketOf (memRead B 0 4) (B.drop hdrCsp)))) with
    ⟨hshort, _⟩ | ⟨_, hlong, _⟩ | ⟨_, _, haccepted⟩
  · omega
  · omega
  · exact haccepted

/-- Settles O51: four header bytes and at most 65531 more are an accepted length, and the header word is those bytes. -/
theorem cspParseReturnsTheHeaderFields : Obligations.CspParseReturnsTheHeaderFields := by
  intro b0 b1 b2 b3 payload s hlen
  have hparse := cspParse_of_acceptedLength (b0 :: b1 :: b2 :: b3 :: payload)
    (Nat.le_add_left 4 payload.length) (Nat.add_le_add_right hlen 4)
  rw [memRead_cspHeader, cspPacketOf_headerBytes] at hparse
  exact (answers_iff _ _ _).2 hparse

end Sys2Proof.Machine

/-! PROOFS. What 40_bitfield.md claims about unpacking, the two packers, and header bytes. -/
namespace Sys2Proof.Machine

section Unpack
variable {ν : Type} {N : Nat} (word : BitVec N) (f : FieldDesc ν)

/-- `UNPACK` in the arithmetic of naturals (40_bitfield.md R101). -/
theorem unpack_toNat : (unpack word f).toNat = (word.toNat >>> f.lo) &&& (2 ^ f.width - 1) := by
  unfold unpack
  rw [BitVec.extractLsb'_toNat, Nat.and_two_pow_sub_one_eq_mod]

/-- An unpacked 1-bit field is a bit. -/
theorem unpack_toNat_of_width_one (h : f.width = 1) : (unpack word f).toNat = 0 ∨ (unpack word f).toNat = 1 := by
  have hlt : (unpack word f).toNat < 2 ^ 1 := h ▸ (unpack word f).isLt
  omega

/-- Words that agree on a field's bits unpack to the same value (40_bitfield.md R101). -/
theorem unpack_congr {word word' : BitVec N}
    (h : ∀ j, f.lo ≤ j → j < f.lo + f.width → word.getLsbD j = word'.getLsbD j) :
    unpack word f = unpack word' f := by
  apply BitVec.eq_of_getLsbD_eq
  intro i hi
  rw [unpack_getLsbD, unpack_getLsbD, h (f.lo + i) (by omega) (by omega)]

end Unpack

/-- Settles O25: the shift-and-mask form, its 1-bit case, and the congruence on the field's bits. -/
theorem unpackShiftsAndMasks : Obligations.UnpackShiftsAndMasks :=
  ⟨fun _ _ word f => ⟨unpack_toNat word f, unpack_toNat_of_width_one word f, fun _ => unpack_congr f⟩, by decide⟩

/-- A value that fits its field goes in as it is, masked or not (40_bitfield.md R102). -/
theorem packInput_of_lt (masked : Bool) {w v : Nat} (h : v < 2 ^ w) : packInput masked w v = v :=
  if_neg fun hover => absurd hover.1 (by omega)

/-- Two mask selectors pack alike when they agree on every field whose value does not fit: masking matters nowhere
else. -/
theorem pack_eq_of_masks_agree_or_fits {ν : Type} (L : Layout ν) (N : Nat) (v : ν → Nat) (m m' : ν → Bool)
    (h : ∀ f ∈ L, m f.name = m' f.name ∨ v f.name < 2 ^ f.width) : pack L N v m = pack L N v m' := by
  suffices hor : packOr L v m = packOr L v m' from congrArg (BitVec.ofNat N) hor
  induction L with
  | nil => rfl
  | cons f L ih =>
    have hinput : packInput (m f.name) f.width (v f.name) = packInput (m' f.name) f.width (v f.name) := by
      rcases h f List.mem_cons_self with hmask | hfits
      · rw [hmask]
      · rw [packInput_of_lt _ hfits, packInput_of_lt _ hfits]
    rw [packOr_cons, packOr_cons, hinput, ih fun g hg => h g (List.mem_cons_of_mem f hg)]

/-- With every bit of `CSP_MASK_SET` set, every CSP field is masked (00_scope.md R11). -/
theorem cspMasked_allOnes (name : CspField) : cspMasked 0b111111#6 name = true := by
  cases name <;> rfl

/-- With `CSP_MASK_SET` zero, only the four flags are masked, and a flag's value fits its bit (42_csp.md R157). -/
theorem cspMasked_zero_or_fits (S : CspSerIn) :
    ∀ f ∈ cspLayout, cspMasked 0b000000#6 f.name = false ∨ cspValues S f.name < 2 ^ f.width := by
  have hflag (t : Bool) : (fromBool t).toNat ≤ 1 := Nat.le_of_lt_succ (fromBool t).isLt
  simp [cspLayout, cspMasked, cspValues, hflag]

/-- The CSP header word at `CSP_MASK_SET` 111111 is that of the masked packer (40_bitfield.md R103). -/
theorem cspHeaderWord_allOnes (S : CspSerIn) :
    cspHeaderWord 0b111111#6 S = packMasked cspLayout 32 (cspValues S) :=
  pack_eq_of_masks_agree_or_fits _ _ _ _ _ fun f _ => .inl (cspMasked_allOnes f.name)

/-- The CSP header word at `CSP_MASK_SET` 000000 is that of the unmasked packer (40_bitfield.md R104). -/
theorem cspHeaderWord_zero (S : CspSerIn) :
    cspHeaderWord 0b000000#6 S = packUnmasked cspLayout 32 (cspValues S) :=
  pack_eq_of_masks_agree_or_fits _ _ _ _ _ (cspMasked_zero_or_fits S)

/-- `SPP_SERIALIZE` answers with the bytes of its header word, then the payload (41_space_packet.md R134). -/
theorem answers_sppSerialize (S : SppSerIn) (s : State) :
    Answers (.sppSerialize S) s ⟨.ok, .bytes (bytesOf 6 (sppHeaderWord S) ++ S.dataField)⟩ := by
  rw [← memWrite_nil]
  exact answers_operation (.sppSerialize S) s

/-- `CSP_SERIALIZE` answers with the bytes of its header word under the build's mask set, then the payload
(42_csp.md R160). -/
theorem answers_cspSerialize (S : CspSerIn) (s : State) :
    Answers (.cspSerialize S) s ⟨.ok, .bytes (bytesOf 4 (cspHeaderWord s.cspMaskSet S) ++ S.data)⟩ := by
  rw [← memWrite_nil]
  exact answers_operation (.cspSerialize S) s

/-- Settles O27: each serializer writes its header word, which at the two extreme mask sets is that of one packer. -/
theorem maskSetExtremesAreTheTwoPackers : Obligations.MaskSetExtremesAreTheTwoPackers := by
  refine ⟨fun _ _ _ _ => ⟨rfl, rfl⟩, answers_sppSerialize, ?allOnes, ?zero⟩
  case allOnes =>
    intro S s hmask
    rw [← cspHeaderWord_allOnes, ← hmask]
    exact answers_cspSerialize S s
  case zero =>
    intro S s hmask
    rw [← cspHeaderWord_zero, ← hmask]
    exact answers_cspSerialize S s

/-- Byte j of `BYTES_OF(v, n)` (40_bitfield.md R109). -/
theorem bytesOf_getElem? {n : Nat} (v : BitVec (8 * n)) {j : Nat} (hj : j < n) :
    (bytesOf n v)[j]? = some (v.extractLsb' (8 * n - 8 - 8 * j) 8) := by
  have hlo : 8 * (n - 1 - j) = 8 * n - 8 - 8 * j := by omega
  simp [bytesOf, hj, hlo]

/-- The bytes of a value are its most significant byte, then the bytes of the rest. -/
theorem bytesOf_succ (n : Nat) (v : BitVec (8 * (n + 1))) :
    bytesOf (n + 1) v = v.extractLsb' (8 * n) 8 :: bytesOf n (v.extractLsb' 0 (8 * n)) := by
  have hrest : ∀ j ∈ List.range n,
      v.extractLsb' (8 * (n - (j + 1))) 8 = (v.extractLsb' 0 (8 * n)).extractLsb' (8 * (n - 1 - j)) 8 := by
    intro j hj
    have hj : j < n := List.mem_range.1 hj
    rw [BitVec.extractLsb'_extractLsb'_of_le (by omega), Nat.sub_sub, Nat.add_comm j 1]
  unfold bytesOf
  rw [List.range_succ_eq_map, List.map_cons, List.map_map, ← List.map_congr_left hrest]
  rfl

/-- The big-endian value of `BYTES_OF(v, n)` is v, by induction on the number of bytes. -/
theorem bigEndian_bytesOf (n : Nat) (v : BitVec (8 * n)) : bigEndian (bytesOf n v) = v.toNat := by
  induction n with
  | zero => rw [BitVec.toNat_of_zero_length rfl]; rfl
  | succ n ih =>
    have hpow : (256 : Nat) ^ n = 2 ^ (8 * n) := (pow_mul 2 8 n).symm
    have htop : v.toNat / 2 ^ (8 * n) < 2 ^ 8 :=
      Nat.div_lt_of_lt_mul (by rw [← pow_add]; exact v.isLt)
    rw [bytesOf_succ, bigEndian_cons, bytesOf_length, ih, hpow, BitVec.extractLsb'_toNat, BitVec.extractLsb'_toNat,
      Nat.shiftRight_eq_div_pow, Nat.shiftRight_zero, Nat.mod_eq_of_lt htop, Nat.div_add_mod']

/-- `MemRead(0, n)` over `BYTES_OF(v, n)` gives v (40_bitfield.md R109). -/
theorem memRead_bytesOf (n : Nat) (v : BitVec (8 * n)) : memRead (bytesOf n v) 0 n = v := by
  have hall : ((bytesOf n v).drop 0).take n = bytesOf n v :=
    List.take_of_length_le (bytesOf_length n v).le
  apply BitVec.eq_of_toNat_eq
  rw [memRead_toNat _ 0 n (by simp), hall, bigEndian_bytesOf]

/-- `MemWrite(0, n, v)` makes the first n bytes of any output buffer those of v (00_scope.md R17). -/
theorem take_memWrite (out : Bytes) (n : Nat) (v : BitVec (8 * n)) : (memWrite out 0 n v).take n = bytesOf n v :=
  List.take_left' (bytesOf_length n v)

/-- Settles O34: the bytes one by one, and the inverse read by induction on n. -/
theorem bytesOfIsTheInverseOfMemRead : Obligations.BytesOfIsTheInverseOfMemRead := fun n v =>
  ⟨bytesOf_length n v, fun _ => bytesOf_getElem? v, memRead_bytesOf n v, fun out => take_memWrite out n v⟩

end Sys2Proof.Machine

/-! PROOFS. What 41_space_packet.md claims about the layout, the parse and the header of `SPP_SERIALIZE`. -/
namespace Sys2Proof.Machine

/-- Settles O32: the layouts are listed so, and their covered bits evaluate to the constants of R120 and R150. -/
theorem layoutsAreThoseOfTheSpec : Obligations.LayoutsAreThoseOfTheSpec :=
  ⟨rfl, by decide, rfl, by decide⟩

/-- `SPP_LAYOUT` is well-formed over the 48 header bits (40_bitfield.md R100). -/
theorem sppLayout_wellFormed : sppLayout.WellFormed 48 := by decide

section MaskedPack
variable {ν : Type}

/-- A masked field's term has the field's bits at the field's place and no bit elsewhere (40_bitfield.md R102, R103). -/
theorem maskedTerm_testBit (lo w v j : Nat) :
    (packInput true w v <<< lo).testBit j = (decide (lo ≤ j ∧ j < lo + w) && v.testBit (j - lo)) := by
  rw [packInput_eq, if_pos rfl, trunc, Nat.testBit_shiftLeft, Nat.testBit_mod_two_pow, ← Bool.and_assoc,
    ← Bool.decide_and]
  congr 2
  exact propext (by omega)

/-- No masked field writes a bit that lies in none of the fields. -/
theorem packOr_masked_testBit_of_outside (L : Layout ν) (v : ν → Nat) (j : Nat)
    (houtside : ∀ f ∈ L, j < f.lo ∨ f.lo + f.width ≤ j) : (packOr L v fun _ => true).testBit j = false := by
  induction L with
  | nil => exact Nat.zero_testBit j
  | cons f L ih =>
    have hhead := houtside f List.mem_cons_self
    have htail := ih fun g hg => houtside g (List.mem_cons_of_mem f hg)
    rw [packOr_cons, Nat.testBit_or, maskedTerm_testBit, htail, decide_eq_false (by omega)]
    rfl

/-- Bit i of a field's input lands on bit `lo + i` of the masked pack: the other fields are disjoint from it. -/
theorem packOr_masked_testBit_of_mem {N : Nat} (L : Layout ν) (v : ν → Nat) (hwf : L.WellFormed N)
    (f : FieldDesc ν) (hf : f ∈ L) (i : Nat) (hi : i < f.width) :
    (packOr L v fun _ => true).testBit (f.lo + i) = (v f.name).testBit i := by
  induction L with
  | nil => cases hf
  | cons g L ih =>
    obtain ⟨hbounds, hpairs⟩ := hwf
    obtain ⟨hg, hL⟩ := List.pairwise_cons.1 hpairs
    have hgwidth := (hbounds g List.mem_cons_self).1
    have htailBounds := fun h (hh : h ∈ L) => hbounds h (List.mem_cons_of_mem g hh)
    have hseparate : ∀ h ∈ L, g.lo + g.width ≤ h.lo ∨ h.lo + h.width ≤ g.lo := fun h hh =>
      (FieldDesc.disjoint_iff g h hgwidth (htailBounds h hh).1).1 (hg h hh)
    rw [packOr_cons, Nat.testBit_or, maskedTerm_testBit]
    rcases List.mem_cons.1 hf with rfl | hmem
    · have htail : (packOr L v fun _ => true).testBit (f.lo + i) = false :=
        packOr_masked_testBit_of_outside L v _ fun h hh => by have := hseparate h hh; omega
      rw [htail, decide_eq_true (by omega), Bool.true_and, Bool.or_false, Nat.add_sub_cancel_left]
    · have := hseparate f hmem
      rw [ih ⟨htailBounds, hL⟩ hmem, decide_eq_false (by omega), Bool.false_and, Bool.false_or]

/-- Unpacking a field of a masked pack gives the field's input modulo `2^w` (40_bitfield.md R107). -/
theorem unpack_packMasked {N : Nat} (L : Layout ν) (v : ν → Nat) (hwf : L.WellFormed N) (f : FieldDesc ν)
    (hf : f ∈ L) : unpack (packMasked L N v) f = BitVec.ofNat f.width (v f.name) := by
  have hhi := (hwf.1 f hf).2
  unfold FieldDesc.hi at hhi
  apply BitVec.eq_of_getLsbD_eq
  intro i hi
  rw [unpack_getLsbD, packMasked, pack, BitVec.getLsbD_ofNat, BitVec.getLsbD_ofNat,
    packOr_masked_testBit_of_mem L v hwf f hf i hi, decide_eq_true (show f.lo + i < N by omega),
    decide_eq_true hi, Bool.true_and]

/-- The masked packer reads of a value only what its field holds (40_bitfield.md R103). -/
theorem packMasked_congr (L : Layout ν) (N : Nat) (v v' : ν → Nat)
    (h : ∀ f ∈ L, v f.name % 2 ^ f.width = v' f.name % 2 ^ f.width) : packMasked L N v = packMasked L N v' := by
  suffices hor : packOr L v (fun _ => true) = packOr L v' fun _ => true from congrArg (BitVec.ofNat N) hor
  induction L with
  | nil => rfl
  | cons f L ih =>
    have hinput : packInput true f.width (v f.name) = packInput true f.width (v' f.name) := by
      rw [packInput_eq, packInput_eq]
      exact h f List.mem_cons_self
    rw [packOr_cons, packOr_cons, hinput, ih fun g hg => h g (List.mem_cons_of_mem f hg)]

end MaskedPack

/-- `MemRead(0, n)` of an output that begins with `BYTES_OF(v, n)` gives v, whatever follows. -/
theorem memRead_bytesOf_append (n : Nat) (v : BitVec (8 * n)) (rest : Bytes) :
    memRead (bytesOf n v ++ rest) 0 n = v := by
  have htake : ((bytesOf n v ++ rest).drop 0).take n = ((bytesOf n v).drop 0).take n :=
    List.take_append_of_le_length (bytesOf_length n v).ge
  calc memRead (bytesOf n v ++ rest) 0 n
    _ = memRead (bytesOf n v) 0 n := congrArg (fun B => BitVec.ofNat (8 * n) (bigEndian B)) htake
    _ = v := memRead_bytesOf n v

/-- Each field of the header that `SPP_SERIALIZE` writes is its input cut to the field's width (R131, R132). -/
theorem unpack_sppHeaderWord (S : SppSerIn) (f : FieldDesc SppField) (hf : f ∈ sppLayout) :
    unpack (sppHeaderWord S) f = BitVec.ofNat f.width (sppValues S f.name) :=
  unpack_packMasked sppLayout (sppValues S) sppLayout_wellFormed f hf

/-- The record with every numeric field cut to the width of its header field (R131). -/
def truncatedSpp (S : SppSerIn) : SppSerIn :=
  { S with
    version := S.version % 8, secondaryHeaderFlag := S.secondaryHeaderFlag % 2, apid := S.apid % 2048,
    sequenceCount := S.sequenceCount % 16384, dataLength := S.dataLength % 2048 }

/-- Cutting the inputs first does not change the header word: the packer cuts them itself. -/
theorem sppHeaderWord_truncatedSpp (S : SppSerIn) : sppHeaderWord (truncatedSpp S) = sppHeaderWord S := by
  apply packMasked_congr
  simp [sppLayout, sppValues, truncatedSpp]

/-- A word read as a natural and put back at its own width is itself. -/
theorem ofNat_toNat_same {w : Nat} (x : BitVec w) : BitVec.ofNat w x.toNat = x :=
  (BitVec.ofNat_toNat w x).trans (BitVec.setWidth_eq x)

/-- Settles O45: the header word holds each input modulo `2^w`, and it is that of the truncated record. -/
theorem sppSerializeTruncatesEachField : Obligations.SppSerializeTruncatesEachField := by
  intro S s
  refine ⟨_, answers_sppSerialize S s, ?fields, ?truncated⟩
  case fields =>
    intro f hf
    rw [memRead_bytesOf_append, unpack_sppHeaderWord S f hf, BitVec.toNat_ofNat]
  case truncated =>
    have htruncated := answers_sppSerialize (truncatedSpp S) s
    rwa [sppHeaderWord_truncatedSpp] at htruncated

/-- Settles O46: an enum's encoding fits its field, so the header word holds it as it is. -/
theorem sppSerializeWritesTheEnums : Obligations.SppSerializeWritesTheEnums := by
  refine ⟨fun S s => ⟨_, answers_sppSerialize S s, ?packetType, ?sequenceFlags⟩, rfl, rfl⟩
  case packetType =>
    rw [memRead_bytesOf_append, unpack_sppHeaderWord S _ (by decide)]
    exact ofNat_toNat_same (fromPacketType S.packetType)
  case sequenceFlags =>
    rw [memRead_bytesOf_append, unpack_sppHeaderWord S _ (by decide)]
    exact ofNat_toNat_same (fromSequenceFlags S.sequenceFlags)

/-- Settles O47: the answer is the six bytes of the header word and then the payload. -/
theorem sppSerializeOutputIsHeaderThenPayload : Obligations.SppSerializeOutputIsHeaderThenPayload := by
  intro S s
  have hheader := bytesOf_length 6 (sppHeaderWord S)
  refine ⟨_, answers_sppSerialize S s, ?length, ?header, ?payload⟩
  case length => rw [List.length_append, hheader]
  case header => exact List.take_left' hheader
  case payload =>
    intro i _
    rw [List.getElem?_append_right (by omega), hheader, Nat.add_sub_cancel_left]

/-- Everything `SPP_PARSE` can answer (R121 to R123). -/
theorem sppParse_cases (B : Bytes) :
    (B.length < 6 ∧ sppParse B = raise .tooShort) ∨
    (6 ≤ B.length ∧ 65535 < B.length ∧ sppParse B = raise .tooLong) ∨
    (6 ≤ B.length ∧ B.length ≤ 65535 ∧ (unpack (memRead B 0 6) SppDesc.version).toNat ≠ 0 ∧
      sppParse B = raise .invalidVersion) ∨
    (6 ≤ B.length ∧ B.length ≤ 65535 ∧ (unpack (memRead B 0 6) SppDesc.version).toNat = 0 ∧
      sppParse B = succeed (.spacePacket (spacePacketOf (memRead B 0 6) (B.drop 6)))) := by
  rcases withLengthChecked_cases hdrSpp B (sppParseHeader B (memRead B 0 6)) with
    hshort | hlong | ⟨hmin, hmax, haccepted⟩
  · exact .inl hshort
  · exact .inr (.inl hlong)
  · by_cases hversion : (unpack (memRead B 0 6) SppDesc.version).toNat = 0
    · exact .inr (.inr (.inr ⟨hmin, hmax, hversion, haccepted.trans (if_neg (not_not.2 hversion))⟩))
    · exact .inr (.inr (.inl ⟨hmin, hmax, hversion, haccepted.trans (if_pos hversion)⟩))

/-- An accepted Space Packet is the record of the header and of the bytes after it, of an accepted length. -/
theorem sppParse_ok {B : Bytes} (hok : (sppParse B).status = .ok) :
    6 ≤ B.length ∧ sppParse B = succeed (.spacePacket (spacePacketOf (memRead B 0 6) (B.drop 6))) := by
  rcases sppParse_cases B with ⟨_, h⟩ | ⟨_, _, h⟩ | ⟨_, _, _, h⟩ | ⟨hmin, _, _, h⟩
  · rw [h] at hok; cases hok
  · rw [h] at hok; cases hok
  · rw [h] at hok; cases hok
  · exact ⟨hmin, h⟩

/-- `SPP_PARSE` answers with a record only on success (60_exceptions.md R186). -/
theorem sppParse_status_of_body {B : Bytes} {p : SpacePacket} (hbody : (sppParse B).body = .spacePacket p) :
    (sppParse B).status = .ok := by
  rcases sppParse_cases B with ⟨_, h⟩ | ⟨_, _, h⟩ | ⟨_, _, _, h⟩ | ⟨_, _, _, h⟩
  · rw [h] at hbody; cases hbody
  · rw [h] at hbody; cases hbody
  · rw [h] at hbody; cases hbody
  · rw [h]; rfl

/-- At an accepted length the version field alone decides between `OK` and `INVALID_VERSION` (R123). -/
theorem sppParse_invalidVersion_iff {B : Bytes} (hmin : 6 ≤ B.length) (hmax : B.length ≤ 65535) :
    (sppParse B).status = .invalidVersion ↔ (unpack (memRead B 0 6) SppDesc.version).toNat ≠ 0 := by
  rcases sppParse_cases B with ⟨hshort, _⟩ | ⟨_, hlong, _⟩ | ⟨_, _, hversion, h⟩ | ⟨_, _, hversion, h⟩
  · omega
  · omega
  · simp [h, raise, hversion]
  · simp [h, succeed, hversion]

/-- The version is the top three bits of byte 0: the header word is byte 0 and 40 bits below it. -/
theorem unpack_version_memRead (b0 : Byte) (rest : Bytes) (hlen : 5 ≤ rest.length) :
    unpack (memRead (b0 :: rest) 0 6) SppDesc.version = b0.extractLsb' 5 3 := by
  have htake : (rest.take 5).length = 5 := List.length_take_of_le hlen
  have hlow := bigEndian_lt (rest.take 5)
  have hword : (memRead (b0 :: rest) 0 6).toNat = b0.toNat * 256 ^ 5 + bigEndian (rest.take 5) := by
    rw [memRead_toNat (b0 :: rest) 0 6 (Nat.succ_le_succ hlen), List.drop_zero, List.take_succ_cons,
      bigEndian_cons, htake]
  apply BitVec.eq_of_toNat_eq
  calc (unpack (memRead (b0 :: rest) 0 6) SppDesc.version).toNat
    _ = (b0.toNat * 256 ^ 5 + bigEndian (rest.take 5)) / 2 ^ 45 % 2 ^ 3 := by
      rw [unpack, BitVec.extractLsb'_toNat, hword, Nat.shiftRight_eq_div_pow]
    _ = b0.toNat / 2 ^ 5 % 2 ^ 3 := by rw [htake] at hlow; omega
    _ = (b0.extractLsb' 5 3).toNat := by rw [BitVec.extractLsb'_toNat, Nat.shiftRight_eq_div_pow]

/-- A three-bit field is nonzero when one of its bits is set. -/
theorem extractLsb'_three_ne_zero_iff {n : Nat} (x : BitVec n) (lo : Nat) :
    (x.extractLsb' lo 3).toNat ≠ 0 ↔
      x.getLsbD (lo + 2) = true ∨ x.getLsbD (lo + 1) = true ∨ x.getLsbD lo = true := by
  have hbit : ∀ i < 3, x.getLsbD (lo + i) = (x.extractLsb' lo 3).getLsbD i := by
    intro i hi
    rw [BitVec.getLsbD_extractLsb', decide_eq_true hi, Bool.true_and]
  rw [hbit 2 (by decide), hbit 1 (by decide), show x.getLsbD lo = _ from hbit 0 (by decide)]
  generalize x.extractLsb' lo 3 = field
  revert field
  decide

/-- Settles O39: the version field decides, and it is bits 7 to 5 of byte 0. -/
theorem sppParseRejectsExactlyNonzeroVersions : Obligations.SppParseRejectsExactlyNonzeroVersions := by
  intro b0 rest s hmin hmax
  have hreject : (sppParse (b0 :: rest)).status = .invalidVersion ↔ _ :=
    sppParse_invalidVersion_iff (Nat.succ_le_succ hmin) (Nat.succ_le_succ hmax)
  refine ⟨_, answers_operation _ s, hreject, hreject.trans ?bits⟩
  case bits =>
    rw [unpack_version_memRead b0 rest hmin]
    exact extractLsb'_three_ne_zero_iff b0 5

/-- Settles O38: of the four answers, the length alone separates the two length errors from the others. -/
theorem sppParseChecksTheLengthFirst : Obligations.SppParseChecksTheLengthFirst := by
  intro B s
  refine ⟨_, answers_operation _ s, ?_⟩
  rw [operation]
  rcases sppParse_cases B with ⟨hshort, h⟩ | ⟨hmin, hlong, h⟩ | ⟨hmin, hmax, _, h⟩ | ⟨hmin, hmax, _, h⟩
  all_goals rw [h]
  · exact ⟨iff_of_true rfl hshort, iff_of_false nofun (by omega), iff_of_false (by decide) (by omega)⟩
  · exact ⟨iff_of_false nofun (by omega), iff_of_true rfl hlong, iff_of_false (by decide) (by omega)⟩
  · exact ⟨iff_of_false nofun (by omega), iff_of_false nofun (by omega), iff_of_true (.inr rfl) ⟨hmin, hmax⟩⟩
  · exact ⟨iff_of_false nofun (by omega), iff_of_false nofun (by omega), iff_of_true (.inl rfl) ⟨hmin, hmax⟩⟩

/-- Settles O42: the record of a success carries the bytes after the header. -/
theorem sppParsePayloadIsTheRemainder : Obligations.SppParsePayloadIsTheRemainder := by
  intro B s
  refine ⟨_, answers_operation _ s, fun hok => ?_⟩
  obtain ⟨hmin, hparse⟩ := sppParse_ok hok
  exact ⟨_, congrArg Response.body hparse, rfl, List.length_drop, hmin⟩

/-- A record with version 0 and an empty payload that carries the three unchecked fields. -/
def uncheckedFieldsRecord (flag : BitVec 1) (apid : BitVec 11) (count : BitVec 14) : SppSerIn :=
  ⟨0, .telemetry, flag.toNat, apid.toNat, .continuation, count.toNat, 0, []⟩

/-- Settles O41: the record of a success is read by `UNPACK`, and for every value of the three fields the header
serialized from it is accepted and read back. -/
theorem sppParseUnpacksUncheckedFields : Obligations.SppParseUnpacksUncheckedFields := by
  refine ⟨?unpacked, ?reached⟩
  case unpacked =>
    intro B s
    refine ⟨_, answers_operation _ s, fun p hbody => ?_⟩
    obtain ⟨_, hparse⟩ := sppParse_ok (sppParse_status_of_body hbody)
    have hp : Body.spacePacket (spacePacketOf (memRead B 0 6) (B.drop 6)) = .spacePacket p :=
      (congrArg Response.body hparse).symm.trans hbody
    cases hp
    exact ⟨rfl, rfl, rfl⟩
  case reached =>
    intro flag apid count s
    have hfield := unpack_sppHeaderWord (uncheckedFieldsRecord flag apid count)
    generalize hH : sppHeaderWord (uncheckedFieldsRecord flag apid count) = H at hfield
    have hread : memRead (bytesOf 6 H) 0 6 = H := memRead_bytesOf 6 H
    have hlen := bytesOf_length 6 H
    have hversion : unpack (memRead (bytesOf 6 H) 0 6) SppDesc.version = 0#3 := by
      rw [hread]
      exact hfield SppDesc.version (by decide)
    have hparse := sppParse_of_versionZero (bytesOf 6 H) hlen.ge (by rw [hlen]; decide) hversion
    rw [hread] at hparse
    refine ⟨_, _, (answers_iff _ _ _).2 hparse, ?flag, ?apid, ?count⟩
    case flag => exact (hfield SppDesc.secondaryHeaderFlag (by decide)).trans (ofNat_toNat_same flag)
    case apid => exact (hfield SppDesc.apid (by decide)).trans (ofNat_toNat_same apid)
    case count => exact (hfield SppDesc.sequenceCount (by decide)).trans (ofNat_toNat_same count)

end Sys2Proof.Machine

/-! PROOFS. What 42_csp.md claims about the length check of `CSP_PARSE` and the output of `CSP_SERIALIZE`. -/
namespace Sys2Proof.Machine

/-- Everything `CSP_PARSE` can answer, with no case beside those of the length check (R152, R155). -/
theorem cspParse_cases (B : Bytes) :
    (B.length < 4 ∧ cspParse B = raise .tooShort) ∨
    (4 ≤ B.length ∧ 65535 < B.length ∧ cspParse B = raise .tooLong) ∨
    (4 ≤ B.length ∧ B.length ≤ 65535 ∧
      cspParse B = succeed (.cspPacket (cspPacketOf (memRead B 0 4) (B.drop 4)))) :=
  withLengthChecked_cases hdrCsp B (succeed (.cspPacket (cspPacketOf (memRead B 0 4) (B.drop hdrCsp))))

/-- Settles O52: each of the three answers belongs to one range of lengths. -/
theorem cspParseChecksOnlyTheLength : Obligations.CspParseChecksOnlyTheLength := by
  intro B s
  refine ⟨_, answers_operation _ s, ?_⟩
  rw [operation]
  rcases cspParse_cases B with ⟨hshort, h⟩ | ⟨hmin, hlong, h⟩ | ⟨hmin, hmax, h⟩
  all_goals rw [h]
  · exact ⟨iff_of_true rfl hshort, iff_of_false nofun (by omega), iff_of_false nofun (by omega)⟩
  · exact ⟨iff_of_false nofun (by omega), iff_of_true rfl hlong, iff_of_false nofun (by omega)⟩
  · exact ⟨iff_of_false nofun (by omega), iff_of_false nofun (by omega), iff_of_true rfl ⟨hmin, hmax⟩⟩

/-- Settles O57: the answer is the four bytes of the header word and then the payload. -/
theorem cspSerializeOutputIsHeaderThenPayload : Obligations.CspSerializeOutputIsHeaderThenPayload := by
  intro S s
  have hheader := bytesOf_length 4 (cspHeaderWord s.cspMaskSet S)
  refine ⟨_, answers_cspSerialize S s, ?length, ?header, ?payload⟩
  case length => rw [List.length_append, hheader]
  case header => exact List.take_left' hheader
  case payload =>
    intro i _
    rw [List.getElem?_append_right (by omega), hheader, Nat.add_sub_cancel_left]

end Sys2Proof.Machine

/-! PROOFS. What 60_exceptions.md claims about error responses and about the serializers. -/
namespace Sys2Proof.Machine

/-- A parse ends in one of two ways: an error raised at a check, with nothing computed before it, or a success
(60_exceptions.md R186). The serializers only succeed (R187). -/
theorem operation_raises_or_succeeds (maskSet : BitVec 6) (i : Instr) :
    (∃ e, operation maskSet i = raise e) ∨ (∃ b, operation maskSet i = succeed b) := by
  cases i with
  | sppParse inp =>
    rcases sppParse_cases inp.buf with ⟨_, h⟩ | ⟨_, _, h⟩ | ⟨_, _, _, h⟩ | ⟨_, _, _, h⟩
    · exact .inl ⟨_, h⟩
    · exact .inl ⟨_, h⟩
    · exact .inl ⟨_, h⟩
    · exact .inr ⟨_, h⟩
  | sppSerialize inp => exact .inr ⟨_, rfl⟩
  | cspParse inp =>
    rcases cspParse_cases inp.buf with ⟨_, h⟩ | ⟨_, _, h⟩ | ⟨_, _, h⟩
    · exact .inl ⟨_, h⟩
    · exact .inl ⟨_, h⟩
    · exact .inr ⟨_, h⟩
  | cspSerialize inp => exact .inr ⟨_, rfl⟩

/-- Settles O21: what is raised has no body, and what succeeds has status `OK`. -/
theorem parseErrorIsAResponseWithoutBody : Obligations.ParseErrorIsAResponseWithoutBody := by
  intro i s
  refine ⟨operation s.cspMaskSet i, answers_operation i s, fun herror => ?_⟩
  rcases operation_raises_or_succeeds s.cspMaskSet i with ⟨e, hraise⟩ | ⟨b, hsucceed⟩
  · rw [hraise, raise]
  · rw [hsucceed] at herror
    exact absurd rfl herror

/-- Settles O24: each serializer answers with the bytes of its header word, then the payload. -/
theorem serializersNeverFail : Obligations.SerializersNeverFail :=
  ⟨fun S s => ⟨_, answers_sppSerialize S s⟩, fun S s => ⟨_, answers_cspSerialize S s⟩⟩

end Sys2Proof.Machine

/-! PROOFS. What 30_encoding.md claims about requests: the conversions of their fields, the encoder and the decoder. -/
namespace Sys2Proof.Machine

theorem fromPacketType_toPacketType (b : BitVec 1) : fromPacketType (toPacketType b) = b := by revert b; decide

theorem toPacketType_fromPacketType (x : PacketType) : toPacketType (fromPacketType x) = x := by cases x <;> rfl

theorem fromSequenceFlags_toSequenceFlags (b : BitVec 2) : fromSequenceFlags (toSequenceFlags b) = b := by
  revert b; decide

theorem toSequenceFlags_fromSequenceFlags (x : SequenceFlags) : toSequenceFlags (fromSequenceFlags x) = x := by
  cases x <;> rfl

theorem fromBool_toBool (b : BitVec 1) : fromBool (toBool b) = b := by revert b; decide

theorem toBool_fromBool (t : Bool) : toBool (fromBool t) = t := by cases t <;> rfl

/-- Settles O36: one lemma for each direction of each conversion. -/
theorem conversionsAreInverse : Obligations.ConversionsAreInverse :=
  ⟨fromPacketType_toPacketType, toPacketType_fromPacketType, fromSequenceFlags_toSequenceFlags,
    toSequenceFlags_fromSequenceFlags, fromBool_toBool, toBool_fromBool, rfl, rfl⟩

/-- A one-bit field survives the byte that carries it (assumption log 2). -/
theorem bitFromByte_setWidth (b : BitVec 1) : bitFromByte (b.setWidth 8) = b := by revert b; decide

/-- A two-bit field survives the byte that carries it (assumption log 2). -/
theorem pairFromByte_setWidth (b : BitVec 2) : pairFromByte (b.setWidth 8) = b := by revert b; decide

end Sys2Proof.Machine

namespace Sys2Proof

open Machine

theorem SppSerIn.fits_iff (S : SppSerIn) : S.fits = true ↔ S.version < 2 ^ 16 ∧ S.secondaryHeaderFlag < 2 ^ 16 ∧
    S.apid < 2 ^ 16 ∧ S.sequenceCount < 2 ^ 16 ∧ S.dataLength < 2 ^ 16 := by
  simp only [SppSerIn.fits, Bool.and_eq_true, fitsSerField_iff, and_assoc]

theorem CspSerIn.fits_iff (S : CspSerIn) : S.fits = true ↔ S.priority < 2 ^ 16 ∧ S.source < 2 ^ 16 ∧
    S.destination < 2 ^ 16 ∧ S.destinationPort < 2 ^ 16 ∧ S.sourcePort < 2 ^ 16 ∧ S.reserved < 2 ^ 16 := by
  simp only [CspSerIn.fits, Bool.and_eq_true, fitsSerField_iff, and_assoc]

/-- The bytes of an `SppSerIn` record that fits its ports are read back to it. -/
theorem decodeSppSerIn_encodeSppSerIn (S : SppSerIn) (hfits : S.fits = true) :
    decodeSppSerIn (encodeSppSerIn S) = .ok S := by
  obtain ⟨hversion, hflag, hapid, hcount, hlength⟩ := (SppSerIn.fits_iff S).1 hfits
  simp only [encodeSppSerIn, List.cons_append, List.nil_append, decodeSppSerIn, numFromBytes_numBytes,
    bitFromByte_setWidth, pairFromByte_setWidth, toPacketType_fromPacketType, toSequenceFlags_fromSequenceFlags, hversion, hflag, hapid,
    hcount, hlength]

/-- The bytes of a `CspSerIn` record that fits its ports are read back to it. -/
theorem decodeCspSerIn_encodeCspSerIn (S : CspSerIn) (hfits : S.fits = true) :
    decodeCspSerIn (encodeCspSerIn S) = .ok S := by
  obtain ⟨hpriority, hsource, hdestination, hdestinationPort, hsourcePort, hreserved⟩ := (CspSerIn.fits_iff S).1 hfits
  simp only [encodeCspSerIn, List.cons_append, List.nil_append, decodeCspSerIn, numFromBytes_numBytes,
    bitFromByte_setWidth, toBool_fromBool, hpriority, hsource, hdestination, hdestinationPort, hsourcePort, hreserved]

/-- Settles O1: a buffer stands as it is, and a serializer's record is read back field by field. -/
theorem encodedRequestDecodesToItself : Obligations.EncodedRequestDecodesToItself := by
  intro i hwf
  cases i with
  | sppParse inp => exact decode_op00 inp.buf
  | sppSerialize S => rw [encode, decode_op01, decodeSppSerIn_encodeSppSerIn S hwf]; rfl
  | cspParse inp => exact decode_op10 inp.buf
  | cspSerialize S => rw [encode, decode_op11, decodeCspSerIn_encodeCspSerIn S hwf]; rfl

/-- Everything the decoder of an `SppSerIn` can answer: bytes that end inside the 12 fixed ones are refused, and any
others are a record that fits its ports, with the rest as its payload. -/
theorem decodeSppSerIn_cases (B : Bytes) :
    (B.length < 12 ∧ decodeSppSerIn B = .error .sppSerInCutShort) ∨
    (12 ≤ B.length ∧ ∃ S, decodeSppSerIn B = .ok S ∧ S.fits = true ∧ S.dataField = B.drop 12) := by
  unfold decodeSppSerIn
  split
  · refine .inr ⟨Nat.le_add_left 12 _, _, rfl, ?_, rfl⟩
    simp only [SppSerIn.fits_iff, numFromBytes_lt, and_self]
  · rename_i hshort
    refine .inl ⟨?_, rfl⟩
    iterate 12
      obtain _ | ⟨b, B⟩ := B
      · simp
    exact (hshort _ _ _ _ _ _ _ _ _ _ _ _ _ rfl).elim

/-- Everything the decoder of a `CspSerIn` can answer: bytes that end inside the 16 fixed ones are refused, and any
others are a record that fits its ports, with the rest as its payload. -/
theorem decodeCspSerIn_cases (B : Bytes) :
    (B.length < 16 ∧ decodeCspSerIn B = .error .cspSerInCutShort) ∨
    (16 ≤ B.length ∧ ∃ S, decodeCspSerIn B = .ok S ∧ S.fits = true ∧ S.data = B.drop 16) := by
  unfold decodeCspSerIn
  split
  · refine .inr ⟨Nat.le_add_left 16 _, _, rfl, ?_, rfl⟩
    simp only [CspSerIn.fits_iff, numFromBytes_lt, and_self]
  · rename_i hshort
    refine .inl ⟨?_, rfl⟩
    iterate 16
      obtain _ | ⟨b, B⟩ := B
      · simp
    exact (hshort _ _ _ _ _ _ _ _ _ _ _ _ _ _ _ _ _ rfl).elim

/-- Everything the decoder can answer, by the `op` (30_encoding.md R70, R72). -/
theorem decode_cases (r : Request) :
    (r.op = 0b00#2 ∧ decode r = .ok (.sppParse ⟨r.operands⟩)) ∨
    (r.op = 0b01#2 ∧ r.operands.length < 12 ∧ decode r = .error .sppSerInCutShort) ∨
    (r.op = 0b01#2 ∧ 12 ≤ r.operands.length ∧ ∃ S, decode r = .ok (.sppSerialize S) ∧ S.fits = true) ∨
    (r.op = 0b10#2 ∧ decode r = .ok (.cspParse ⟨r.operands⟩)) ∨
    (r.op = 0b11#2 ∧ r.operands.length < 16 ∧ decode r = .error .cspSerInCutShort) ∨
    (r.op = 0b11#2 ∧ 16 ≤ r.operands.length ∧ ∃ S, decode r = .ok (.cspSerialize S) ∧ S.fits = true) := by
  obtain ⟨op, B⟩ := r
  have hop : op = 0b00#2 ∨ op = 0b01#2 ∨ op = 0b10#2 ∨ op = 0b11#2 := by revert op; decide
  rcases hop with rfl | rfl | rfl | rfl
  · exact .inl ⟨rfl, decode_op00 B⟩
  · rw [decode_op01]
    rcases decodeSppSerIn_cases B with ⟨hshort, h⟩ | ⟨hlong, S, h, hfits, _⟩
    · exact .inr (.inl ⟨rfl, hshort, by rw [h]; rfl⟩)
    · exact .inr (.inr (.inl ⟨rfl, hlong, S, by rw [h]; rfl, hfits⟩))
  · exact .inr (.inr (.inr (.inl ⟨rfl, decode_op10 B⟩)))
  · rw [decode_op11]
    rcases decodeCspSerIn_cases B with ⟨hshort, h⟩ | ⟨hlong, S, h, hfits, _⟩
    · exact .inr (.inr (.inr (.inr (.inl ⟨rfl, hshort, by rw [h]; rfl⟩))))
    · exact .inr (.inr (.inr (.inr (.inr ⟨rfl, hlong, S, by rw [h]; rfl, hfits⟩))))

/-- Settles O2: the numeric inputs of a decoded serializer record stand in two bytes each. -/
theorem decodedRequestsAreWellFormed : Obligations.DecodedRequestsAreWellFormed := by
  intro r i hdecode
  rcases decode_cases r with ⟨_, h⟩ | ⟨_, _, h⟩ | ⟨_, _, S, h, hfits⟩ | ⟨_, h⟩ | ⟨_, _, h⟩ | ⟨_, _, S, h, hfits⟩
  all_goals rw [hdecode] at h; cases h
  · rfl
  · exact hfits
  · rfl
  · exact hfits

/-- Settles O3: 16 bytes hold either serializer's record, and a buffer is any bytes. -/
theorem everyOpSelectsItsOperation : Obligations.EveryOpSelectsItsOperation := by
  intro B hlen
  refine ⟨decode_op00 B, ?sppSerialize, decode_op10 B, ?cspSerialize⟩
  case sppSerialize =>
    rcases decodeSppSerIn_cases B with ⟨hshort, _⟩ | ⟨_, S, h, _, hrest⟩
    · omega
    · exact ⟨S, by rw [decode_op01, h]; rfl, hrest⟩
  case cspSerialize =>
    rcases decodeCspSerIn_cases B with ⟨hshort, _⟩ | ⟨_, S, h, _, hrest⟩
    · omega
    · exact ⟨S, by rw [decode_op11, h]; rfl, hrest⟩

/-- Settles O4: of the decoder's answers, the two refusals are those of a serializer's record cut short. -/
theorem decoderRefusesExactlyRecordsCutShort : Obligations.DecoderRefusesExactlyRecordsCutShort := by
  intro r
  rcases decode_cases r with ⟨hop, h⟩ | ⟨hop, hlen, h⟩ | ⟨hop, hlen, S, h, _⟩ | ⟨hop, h⟩ | ⟨hop, hlen, h⟩ |
    ⟨hop, hlen, S, h, _⟩
  all_goals rw [h, hop]
  · exact iff_of_false nofun (by simp)
  · exact iff_of_true ⟨_, rfl⟩ (.inl ⟨rfl, hlen⟩)
  · exact iff_of_false nofun (by simp; omega)
  · exact iff_of_false nofun (by simp)
  · exact iff_of_true ⟨_, rfl⟩ (.inr ⟨rfl, hlen⟩)
  · exact iff_of_false nofun (by simp; omega)

/-- Settles O5: the three requests evaluate. -/
theorem knownRequestsDecode : Obligations.KnownRequestsDecode :=
  ⟨by decide, by decide, by decide⟩

end Sys2Proof

/-! PROOFS. What 10_state.md, 60_exceptions.md and 70_reset_and_hazards.md claim about the agent: its steps, the two
channels, reset, and the responses over a run. -/
namespace Sys2Proof.Machine

section Steps
variable {s : State} (hreset : s.resetAsserted = false)
include hreset

/-- A step in `Idle` is the response channel's transfer, then the agent's part (10_state.md R40, R41). -/
theorem step_idle (hphase : s.phase = .idle) : step s = .next s.transferResponse.awaitRequest := by
  simp [step, hreset, hphase]

/-- A step in `Busy` runs the held request after the response channel's transfer (10_state.md R40, R41). -/
theorem step_busy {r : Request} {i : Instr} (hphase : s.phase = .busy r) (hdecode : decode r = .ok i) :
    step s = exec i s.transferResponse := by
  simp [step, hreset, hphase, hdecode]

/-- A step in `Busy` refuses operand bytes that are no record (assumption log 10). -/
theorem step_busy_refused {r : Request} {e : DecodeError} (hphase : s.phase = .busy r)
    (hdecode : decode r = .error e) : step s = .refused (.notARequest e) := by
  simp [step, hreset, hphase, hdecode]

end Steps

/-- A step under reset is the reset (70_reset_and_hazards.md R210). -/
theorem step_reset {s : State} (hreset : s.resetAsserted = true) : step s = .next s.takeReset := by
  simp [step, hreset]

/-- Settles O6: the equation of a step in `Busy`. -/
theorem stepRunsTheHeldRequest : Obligations.StepRunsTheHeldRequest :=
  fun _ _ _ hreset hphase hdecode => step_busy hreset hphase hdecode

/-- Settles O7: the equation of a step in `Busy` whose request does not decode. -/
theorem stepRefusesAHeldRequestCutShort : Obligations.StepRefusesAHeldRequestCutShort :=
  fun _ _ _ hreset hphase hdecode => step_busy_refused hreset hphase hdecode

section AwaitRequest
variable {s : State}

/-- While the delay after a reset runs, the agent counts one off it (assumption log 15). -/
theorem State.awaitRequest_of_delay {d : Nat} (hdelay : s.readyDelay = d + 1) :
    s.awaitRequest = { s with readyDelay := d } := by
  simp [State.awaitRequest, hdelay]

/-- Once the delay is over the agent captures the first presented request (10_state.md R41). -/
theorem State.awaitRequest_of_presented {q : Request} {rest : List Request} (hdelay : s.readyDelay = 0)
    (hqueue : s.reqQueue = q :: rest) : s.awaitRequest = { s with phase := .busy q, reqQueue := rest } := by
  simp [State.awaitRequest, State.accept, hdelay, hqueue]

/-- With nothing presented the agent waits (assumption log 9). -/
theorem State.awaitRequest_of_none (hdelay : s.readyDelay = 0) (hqueue : s.reqQueue = []) : s.awaitRequest = s := by
  simp [State.awaitRequest, State.accept, hdelay, hqueue]

end AwaitRequest

/-- Settles O8: the three equations of the agent's part in `Idle`, after the transfer. -/
theorem idleStepAcceptsOrWaits : Obligations.IdleStepAcceptsOrWaits := by
  intro s hreset hphase
  rw [step_idle hreset hphase]
  refine ⟨fun r rest hdelay hqueue => ?accepts, fun hdelay hqueue => ?waits, fun d hdelay => ?counts⟩
  case accepts => rw [State.awaitRequest_of_presented (by simpa using hdelay) (by simpa using hqueue)]
  case waits => rw [State.awaitRequest_of_none (by simpa using hdelay) (by simpa using hqueue)]
  case counts => rw [State.awaitRequest_of_delay (by simpa using hdelay)]

theorem State.reqValid_iff (s : State) : s.reqValid = true ↔ s.reqQueue ≠ [] := by simp [State.reqValid]

theorem State.reqReady_iff (s : State) :
    s.reqReady = true ↔ s.phase = .idle ∧ s.readyDelay = 0 ∧ s.resetAsserted = false := by
  simp [State.reqReady, and_assoc]

theorem State.rspValid_iff (s : State) : s.rspValid = true ↔ s.rspQueue ≠ [] ∧ s.resetAsserted = false := by
  simp [State.rspValid]

/-- Settles O9: of everything a step can do, only the agent's part in `Idle` touches the request channel, and it takes a
request when the delay is over and one is presented. -/
theorem requestTransfersExactlyWhenValidAndReady : Obligations.RequestTransfersExactlyWhenValidAndReady := by
  intro s t hstep
  refine ⟨?transfers, ?stays, s.reqReady_iff⟩
  case transfers =>
    rintro ⟨hvalid, hready⟩
    obtain ⟨hphase, hdelay, hreset⟩ := s.reqReady_iff.1 hready
    obtain ⟨q, rest, hqueue⟩ := List.exists_cons_of_ne_nil (s.reqValid_iff.1 hvalid)
    rw [step_idle hreset hphase,
      State.awaitRequest_of_presented (by simpa using hdelay) (by simpa using hqueue)] at hstep
    cases hstep
    exact ⟨q, hqueue, rfl⟩
  case stays =>
    intro hblocked
    rw [s.reqValid_iff, s.reqReady_iff] at hblocked
    rcases step_cases hstep with ⟨_, rfl⟩ | ⟨hreset, hphase, rfl⟩ | ⟨_, r, i, _, _, rfl⟩
    · rfl
    · rcases s.transferResponse.awaitRequest_cases with ⟨d, _, h⟩ | ⟨_, _, h⟩ | ⟨q, rest, hdelay, hqueue, _⟩
      · simp [h]
      · simp [h]
      · rw [State.transferResponse_readyDelay] at hdelay
        rw [State.transferResponse_reqQueue] at hqueue
        exact absurd ⟨by simp [hqueue], hphase, hdelay, hreset⟩ hblocked
    · simp

/-- With nothing on the channel or no `rsp_ready`, nothing transfers (10_state.md R40). -/
theorem State.transferResponse_of_blocked {s : State} (hblocked : s.rspQueue = [] ∨ s.rspReady = false) :
    s.transferResponse = s := by
  rcases s.transferResponse_cases with ⟨_, h⟩ | ⟨p, rest, hqueue, hready, _⟩
  · exact h
  · simp [hqueue, hready] at hblocked

/-- Settles O10: the transfer moves the oldest response exactly then, and nothing else of a step touches what the host
has taken. -/
theorem responseTransfersExactlyWhenValidAndReady : Obligations.ResponseTransfersExactlyWhenValidAndReady := by
  intro s t hstep
  refine ⟨?transfers, ?stays, s.rspValid_iff⟩
  case transfers =>
    rintro ⟨hvalid, hready⟩
    obtain ⟨hwaiting, hreset⟩ := s.rspValid_iff.1 hvalid
    rcases s.transferResponse_cases with ⟨hnone | hnot, _⟩ | ⟨p, rest, hqueue, _, htransfer⟩
    · exact absurd hnone hwaiting
    · simp [hnot] at hready
    · refine ⟨p, rest, hqueue, ?_⟩
      rcases step_cases hstep with ⟨h, _⟩ | ⟨_, _, rfl⟩ | ⟨_, r, i, _, _, rfl⟩
      · simp [hreset] at h
      · simp [htransfer]
      · simp [htransfer]
  case stays =>
    intro hblocked
    rw [s.rspValid_iff] at hblocked
    have hblocked (hreset : s.resetAsserted = false) : s.rspQueue = [] ∨ s.rspReady = false := by
      by_contra hopen
      exact hblocked ⟨⟨fun hnone => hopen (.inl hnone), hreset⟩, by simpa using fun hnot => hopen (.inr hnot)⟩
    rcases step_cases hstep with ⟨_, rfl⟩ | ⟨hreset, _, rfl⟩ | ⟨hreset, r, i, _, _, rfl⟩
    · rfl
    · rw [State.transferResponse_of_blocked (hblocked hreset), State.awaitRequest_rspTaken]
    · rw [State.transferResponse_of_blocked (hblocked hreset), State.respond_rspTaken]

/-- Settles O11: the equation of a step under reset. -/
theorem assertedResetDiscardsTheHeldRequest : Obligations.AssertedResetDiscardsTheHeldRequest :=
  fun _ hreset => step_reset hreset

/-- Settles O15: neither reset nor the agent writes the build parameter. -/
theorem stepKeepsTheMaskSet : Obligations.StepKeepsTheMaskSet := by
  intro s t hstep
  rcases step_cases hstep with ⟨_, rfl⟩ | ⟨_, _, rfl⟩ | ⟨_, r, i, _, _, rfl⟩
  · exact s.takeReset_cspMaskSet
  · simp
  · simp

/-- The transfer moves a response from the channel to the host: the two lists together stay (10_state.md R40). -/
theorem State.transferResponse_taken_append_waiting (s : State) :
    s.transferResponse.rspTaken ++ s.transferResponse.rspQueue = s.rspTaken ++ s.rspQueue := by
  rcases s.transferResponse_cases with ⟨_, h⟩ | ⟨p, rest, hqueue, _, h⟩
  · rw [h]
  · simp [h, hqueue]

/-- Both lists of responses are legal when all of them, in the order of emission, are. -/
theorem State.responsesLegal_eq (s : State) :
    s.responsesLegal = (s.rspTaken ++ s.rspQueue).all Response.legal := by
  rw [List.all_append, Bool.and_comm, State.responsesLegal]

/-- Every value of the operation function is legal (10_state.md R30, R32, R35; 60_exceptions.md R185). -/
theorem operation_legal (maskSet : BitVec 6) (i : Instr) : (operation maskSet i).legal = true := by
  cases i with
  | sppParse inp =>
    rw [operation]
    rcases sppParse_cases inp.buf with ⟨_, h⟩ | ⟨_, _, h⟩ | ⟨_, _, _, h⟩ | ⟨_, hmax, _, h⟩
    all_goals rw [h]
    · rfl
    · rfl
    · rfl
    · have hpayload : (inp.buf.drop 6).length ≤ 65529 := by rw [List.length_drop]; omega
      simpa [Response.legal, succeed, spacePacketOf] using hpayload
  | sppSerialize S =>
    have hlen : 4 ≤ (sppSerialize S).length := by
      rw [sppSerialize, memWrite_nil, List.length_append, bytesOf_length]
      omega
    exact decide_eq_true hlen
  | cspParse inp =>
    rw [operation]
    rcases cspParse_cases inp.buf with ⟨_, h⟩ | ⟨_, _, h⟩ | ⟨_, hmax, h⟩
    all_goals rw [h]
    · rfl
    · rfl
    · have hpayload : (inp.buf.drop 4).length ≤ 65531 := by rw [List.length_drop]; omega
      simpa [Response.legal, succeed, cspPacketOf] using hpayload
  | cspSerialize S =>
    have hlen : 4 ≤ (cspSerialize maskSet S).length := by
      rw [cspSerialize, memWrite_nil, List.length_append, bytesOf_length]
      omega
    exact decide_eq_true hlen

/-- Settles O13: at reset both lists are empty. -/
theorem resetResponsesAreLegal : Obligations.ResetResponsesAreLegal := rfl

/-- Settles O14: reset empties the channel, a transfer moves a response, and what a step emits is a value of the
operation function. -/
theorem stepKeepsResponsesLegal : Obligations.StepKeepsResponsesLegal := by
  intro s t hlegal hstep
  rw [State.responsesLegal_eq] at hlegal ⊢
  rcases step_cases hstep with ⟨_, rfl⟩ | ⟨_, _, rfl⟩ | ⟨_, r, i, _, _, rfl⟩
  · rw [List.all_append, Bool.and_eq_true] at hlegal
    simp [hlegal.1]
  · rwa [State.awaitRequest_rspTaken, State.awaitRequest_rspQueue, State.transferResponse_taken_append_waiting]
  · rw [State.respond_rspTaken, State.respond_rspQueue, ← List.append_assoc,
      State.transferResponse_taken_append_waiting, List.all_append, hlegal]
    simp [operation_legal]

/-- Accepting a request moves it from the channel to the phase: what is owed stays (10_state.md R41). -/
theorem State.awaitRequest_outstanding {s : State} (hphase : s.phase = .idle) :
    s.awaitRequest.outstanding = s.outstanding := by
  rcases s.awaitRequest_cases with ⟨d, _, h⟩ | ⟨_, _, h⟩ | ⟨q, rest, _, hqueue, h⟩
  · rw [h]; rfl
  · rw [h]
  · rw [h]
    simp [State.outstanding, hphase, hqueue]

theorem State.transferResponse_outstanding (s : State) : s.transferResponse.outstanding = s.outstanding := by
  simp [State.outstanding]

theorem State.outstanding_of_idle {s : State} (hphase : s.phase = .idle) : s.outstanding = s.reqQueue := by
  simp [State.outstanding, hphase]

theorem State.outstanding_of_busy {s : State} {r : Request} (hphase : s.phase = .busy r) :
    s.outstanding = r :: s.reqQueue := by
  simp [State.outstanding, hphase]

/-- A request that decodes is owed the value of the operation function. -/
theorem responseTo_of_decode {r : Request} {i : Instr} (maskSet : BitVec 6) (hdecode : decode r = .ok i) :
    responseTo maskSet r = some (operation maskSet i) := by
  rw [responseTo, hdecode]

/-- Settles O16: a transfer and an acceptance move an entry across the boundary of two neighbouring lists, and a
response takes the place of the one owed for the held request, which is the first owed. -/
theorem stepAnswersInOrderOfAcceptance : Obligations.StepAnswersInOrderOfAcceptance := by
  intro s t hreset hstep
  rcases step_cases hstep with ⟨h, _⟩ | ⟨_, hphase, rfl⟩ | ⟨_, r, i, hphase, hdecode, rfl⟩
  · simp [hreset] at h
  · refine ⟨by simp [hreset], ?_⟩
    rw [State.awaitRequest_outstanding (by simpa using hphase), State.transferResponse_outstanding]
    simp only [State.awaitRequest_rspTaken, State.awaitRequest_rspQueue, State.awaitRequest_cspMaskSet,
      State.transferResponse_cspMaskSet, State.transferResponse_taken_append_waiting]
  · refine ⟨by simp [hreset], ?_⟩
    rw [State.outstanding_of_idle (State.respond_phase _ _), State.outstanding_of_busy hphase, List.map_cons,
      responseTo_of_decode _ hdecode, State.respond_rspTaken, State.respond_rspQueue, ← List.append_assoc,
      State.transferResponse_taken_append_waiting]
    simp

/-- Settles O20: for these operations the operation function does not read its `CSP_MASK_SET`. -/
theorem onlyCspSerializeDependsOnTheMaskSet : Obligations.OnlyCspSerializeDependsOnTheMaskSet := by
  intro s t
  exact ⟨fun p => ⟨sppParse p.buf, answers_operation _ s, answers_operation _ t⟩,
    fun S => ⟨succeed (.bytes (sppSerialize S)), answers_operation _ s, answers_operation _ t⟩,
    fun p => ⟨cspParse p.buf, answers_operation _ s, answers_operation _ t⟩⟩

/-- A legal response has none of the two impossible codes, and a body if it is a success. -/
theorem Response.legal_spec {r : Response} (hlegal : r.legal = true) :
    r.status ≠ .invalidPacketType ∧ r.status ≠ .invalidSequenceFlags ∧ (r.status = .ok → r.body ≠ .none) := by
  unfold Response.legal at hlegal
  split at hlegal
  case h_7 => cases hlegal
  all_goals
    rename_i hstatus hbody
    simp [hstatus, hbody]

/-- Settles O22: every answer is a legal response. -/
theorem impossibleCodesAreNeverReturned : Obligations.ImpossibleCodesAreNeverReturned :=
  fun i s => ⟨operation s.cspMaskSet i, answers_operation i s, Response.legal_spec (operation_legal s.cspMaskSet i)⟩

/-- Settles O23: the table, row by row. -/
theorem statusCodesAreThoseOfTheTable : Obligations.StatusCodesAreThoseOfTheTable := by
  refine ⟨rfl, rfl, rfl, rfl, rfl, rfl, fun e => ?unused⟩
  case unused => cases e <;> decide

/-! ### Runs -/

/-- What steps without a reset make of `s`: in `t` its responses stand as they did, then `emitted`. A host without
`rsp_ready` has taken none of them; to one with `rsp_ready` each step hands one over, so the channel does not grow
beyond the one response a step emits. No other field of the block or of the host changes. -/
structure Progress (s : State) (emitted : List Response) (t : State) : Prop where
  frame : t = { s with phase := t.phase, reqQueue := t.reqQueue, readyDelay := t.readyDelay,
                       rspTaken := t.rspTaken, rspQueue := t.rspQueue }
  order : t.rspTaken ++ t.rspQueue = s.rspTaken ++ s.rspQueue ++ emitted
  notReady : s.rspReady = false → t.rspTaken = s.rspTaken
  ready : s.rspReady = true → t.rspQueue.length ≤ max s.rspQueue.length 1

section Progress
variable {s t u : State} {emitted later : List Response}

theorem Progress.rspReady_eq (h : Progress s emitted t) : t.rspReady = s.rspReady := by rw [h.frame]

theorem Progress.resetAsserted_eq (h : Progress s emitted t) : t.resetAsserted = s.resetAsserted := by rw [h.frame]

theorem Progress.cspMaskSet_eq (h : Progress s emitted t) : t.cspMaskSet = s.cspMaskSet := by rw [h.frame]

/-- No step, no emission. -/
theorem Progress.refl (s : State) : Progress s [] s :=
  ⟨rfl, (List.append_nil _).symm, fun _ => rfl, fun _ => Nat.le_max_left _ _⟩

theorem Progress.trans (h : Progress s emitted t) (h' : Progress t later u) : Progress s (emitted ++ later) u where
  frame := by rw [h'.frame, h.frame]
  order := by rw [h'.order, h.order, List.append_assoc]
  notReady hnot := (h'.notReady (h.rspReady_eq.trans hnot)).trans (h.notReady hnot)
  ready hready := by
    have hfirst := h.ready hready
    have hlater := h'.ready (h.rspReady_eq.trans hready)
    omega

end Progress

/-- With `rsp_ready` a transfer takes one response off the channel, if it holds any. -/
theorem State.transferResponse_rspQueue_length {s : State} (hready : s.rspReady = true) :
    s.transferResponse.rspQueue.length = s.rspQueue.length - 1 := by
  rcases s.transferResponse_cases with ⟨hblocked, h⟩ | ⟨p, rest, hqueue, _, h⟩
  · have hnone : s.rspQueue = [] := by simpa [hready] using hblocked
    rw [h, hnone]
    rfl
  · rw [h, hqueue]
    rfl

/-- Without `rsp_ready` a transfer hands nothing to the host. -/
theorem State.transferResponse_rspTaken_of_notReady {s : State} (hnot : s.rspReady = false) :
    s.transferResponse.rspTaken = s.rspTaken := by
  rw [State.transferResponse_of_blocked (.inr hnot)]

/-- A step in `Idle` emits nothing. -/
theorem progress_idle (s : State) : Progress s [] s.transferResponse.awaitRequest where
  frame := by
    rcases s.transferResponse.awaitRequest_cases with ⟨_, _, h⟩ | ⟨_, _, h⟩ | ⟨_, _, _, _, h⟩
    all_goals
      rw [h]
      rcases s.transferResponse_cases with ⟨_, h'⟩ | ⟨_, _, _, _, h'⟩ <;> rw [h']
  order := by
    rw [State.awaitRequest_rspTaken, State.awaitRequest_rspQueue, State.transferResponse_taken_append_waiting,
      List.append_nil]
  notReady hnot := by rw [State.awaitRequest_rspTaken, State.transferResponse_rspTaken_of_notReady hnot]
  ready hready := by
    rw [State.awaitRequest_rspQueue, State.transferResponse_rspQueue_length hready]
    omega

/-- A step in `Busy` emits one response. -/
theorem progress_busy (s : State) (r : Response) : Progress s [r] (s.transferResponse.respond r) where
  frame := by rcases s.transferResponse_cases with ⟨_, h⟩ | ⟨_, _, _, _, h⟩ <;> rw [h, State.respond]
  order := by
    rw [State.respond_rspTaken, State.respond_rspQueue, ← List.append_assoc,
      State.transferResponse_taken_append_waiting]
  notReady hnot := by rw [State.respond_rspTaken, State.transferResponse_rspTaken_of_notReady hnot]
  ready hready := by
    rw [State.respond_rspQueue, List.length_append, State.transferResponse_rspQueue_length hready,
      List.length_singleton]
    omega

/-- The delay after a reset runs off, one step each (assumption log 15). -/
theorem run_readyDelay (d k : Nat) : ∀ s : State, s.resetAsserted = false → s.phase = .idle → s.readyDelay = d →
    ∃ t, Progress s [] t ∧ t.phase = .idle ∧ t.readyDelay = 0 ∧ t.reqQueue = s.reqQueue ∧
      Host.Core.run core (d + k) s = Host.Core.run core k t := by
  induction d with
  | zero => exact fun s _ hphase hdelay => ⟨s, Progress.refl s, hphase, hdelay, rfl, by rw [Nat.zero_add]⟩
  | succ d ih =>
    intro s hreset hphase hdelay
    have hawait := State.awaitRequest_of_delay (s := s.transferResponse) (by simpa using hdelay)
    obtain ⟨t, hprogress, hidle, hzero, hqueue, hrun⟩ :=
      ih s.transferResponse.awaitRequest (by simpa using hreset) (by simpa [hawait] using hphase) (by rw [hawait])
    refine ⟨t, (progress_idle s).trans hprogress, hidle, hzero, by simpa [hawait] using hqueue, ?_⟩
    rw [Nat.add_right_comm, run_succ _ (step_idle hreset hphase), hrun]

/-- A presented request is answered in two steps, `accept` and `respond` (10_state.md R41). -/
theorem run_accept_respond {s : State} {q : Request} {rest : List Request} {i : Instr} (k : Nat)
    (hreset : s.resetAsserted = false) (hphase : s.phase = .idle) (hdelay : s.readyDelay = 0)
    (hqueue : s.reqQueue = q :: rest) (hdecode : decode q = .ok i) :
    ∃ t, Progress s [operation s.cspMaskSet i] t ∧ t.phase = .idle ∧ t.readyDelay = 0 ∧ t.reqQueue = rest ∧
      Host.Core.run core (k + 2) s = Host.Core.run core k t := by
  have haccept := step_idle hreset hphase
  have hprogress := progress_idle s
  have hawait :=
    State.awaitRequest_of_presented (s := s.transferResponse) (by simpa using hdelay) (by simpa using hqueue)
  have hheld : s.transferResponse.awaitRequest.phase = .busy q := by rw [hawait]
  have hdelay' : s.transferResponse.awaitRequest.readyDelay = 0 := by simpa [hawait] using hdelay
  have hqueue' : s.transferResponse.awaitRequest.reqQueue = rest := by rw [hawait]
  generalize s.transferResponse.awaitRequest = b at haccept hprogress hheld hdelay' hqueue'
  have hrespond : step b = .next (b.transferResponse.respond (operation s.cspMaskSet i)) := by
    rw [step_busy (hprogress.resetAsserted_eq.trans hreset) hheld hdecode, exec_eq_respond,
      State.transferResponse_cspMaskSet, hprogress.cspMaskSet_eq]
  refine ⟨_, hprogress.trans (progress_busy b _), State.respond_phase _ _, by simpa using hdelay',
    by simpa using hqueue', ?_⟩
  rw [run_succ _ haccept, run_succ _ hrespond]

/-- Every presented request is answered in two steps, in order, by induction on the requests presented. -/
theorem run_reqQueue (rs : List Request) (k : Nat) : ∀ s : State, s.resetAsserted = false → s.phase = .idle →
    s.readyDelay = 0 → s.reqQueue = rs → (∀ r ∈ rs, ∃ i, decode r = .ok i) →
    ∃ t, Progress s (rs.filterMap (responseTo s.cspMaskSet)) t ∧ t.phase = .idle ∧ t.readyDelay = 0 ∧
      t.reqQueue = [] ∧ Host.Core.run core (2 * rs.length + k) s = Host.Core.run core k t := by
  induction rs with
  | nil =>
    intro s _ hphase hdelay hqueue _
    exact ⟨s, Progress.refl s, hphase, hdelay, hqueue, by rw [List.length_nil, Nat.mul_zero, Nat.zero_add]⟩
  | cons q rest ih =>
    intro s hreset hphase hdelay hqueue hdecodes
    obtain ⟨i, hdecode⟩ := hdecodes q List.mem_cons_self
    obtain ⟨t, hfirst, hphase', hdelay', hqueue', hrun⟩ :=
      run_accept_respond (2 * rest.length + k) hreset hphase hdelay hqueue hdecode
    obtain ⟨u, hrest, hidle, hzero, hempty, hrun'⟩ :=
      ih t (hfirst.resetAsserted_eq.trans hreset) hphase' hdelay' hqueue' fun r hr =>
        hdecodes r (List.mem_cons_of_mem q hr)
    rw [hfirst.cspMaskSet_eq] at hrest
    refine ⟨u, ?_, hidle, hzero, hempty, ?_⟩
    · rw [List.filterMap_cons_some (responseTo_of_decode _ hdecode)]
      exact hfirst.trans hrest
    · rw [List.length_cons, Nat.mul_succ, Nat.add_right_comm, hrun, hrun']

/-- After the delay of a reset and two steps for each presented request, an idle block has emitted every response. -/
theorem run_answers {s : State} (k : Nat) (hreset : s.resetAsserted = false) (hphase : s.phase = .idle)
    (hanswerable : s.answerable) :
    ∃ t, Progress s (s.reqQueue.filterMap (responseTo s.cspMaskSet)) t ∧ t.phase = .idle ∧ t.readyDelay = 0 ∧
      t.reqQueue = [] ∧
      Host.Core.run core (s.readyDelay + 2 * s.reqQueue.length + k) s = Host.Core.run core k t := by
  obtain ⟨t, hdelay, hphase', hdelay', hqueue', hrun⟩ :=
    run_readyDelay s.readyDelay (2 * s.reqQueue.length + k) s hreset hphase rfl
  obtain ⟨u, hanswers, hidle, hzero, hempty, hrun'⟩ :=
    run_reqQueue s.reqQueue k t (hdelay.resetAsserted_eq.trans hreset) hphase' hdelay' hqueue' fun r hr =>
      hanswerable r (State.outstanding_of_idle hphase ▸ hr)
  rw [hdelay.cspMaskSet_eq] at hanswers
  exact ⟨u, hdelay.trans hanswers, hidle, hzero, hempty, by rw [Nat.add_assoc, hrun, hrun']⟩

/-- Settles O12: the delay runs off with nothing on the channel to transfer, and the next step accepts. -/
theorem resetLeavesTheBlockIdle : Obligations.ResetLeavesTheBlockIdle := by
  refine ⟨rfl, rfl, fun r => ?_⟩
  obtain ⟨t, hprogress, hphase, hdelay, hqueue, hrun⟩ :=
    run_readyDelay State.reset.readyDelay 1 (State.reset.hostPresent r) rfl rfl rfl
  obtain ⟨htaken, hwaiting⟩ : t.rspTaken = [] ∧ t.rspQueue = [] := List.append_eq_nil_iff.1 hprogress.order
  have ht : t = { State.reset.hostPresent r with readyDelay := 0 } := by
    rw [hprogress.frame, hphase, hdelay, hqueue, htaken, hwaiting]
    rfl
  rw [hrun, ht]
  rfl

/-- Settles O17: what the run emits waits on the channel, because nothing has been taken. -/
theorem everyPresentedRequestIsAnswered : Obligations.EveryPresentedRequestIsAnswered := by
  intro s hreset hphase hnotReady hanswerable
  obtain ⟨t, hprogress, hidle, hzero, hempty, hrun⟩ := run_answers 0 hreset hphase hanswerable
  have htaken := hprogress.notReady hnotReady
  have hwaiting := hprogress.order
  rw [htaken, List.append_assoc, List.append_cancel_left_eq] at hwaiting
  refine hrun.trans (congrArg _ ?_)
  rw [hprogress.frame, hidle, hzero, hempty, htaken, hwaiting, ← hphase]

/-- An idle block with nothing presented hands over its responses, one a step, to a host with `rsp_ready` (R40). -/
theorem run_drain (k : Nat) : ∀ s : State, s.resetAsserted = false → s.phase = .idle → s.readyDelay = 0 →
    s.reqQueue = [] → s.rspReady = true → s.rspQueue.length ≤ k →
    Host.Core.run core k s = .next { s with rspTaken := s.rspTaken ++ s.rspQueue, rspQueue := [] } := by
  induction k with
  | zero =>
    intro s _ _ _ _ _ hlen
    have hnone : s.rspQueue = [] := List.length_eq_zero_iff.1 (Nat.le_zero.1 hlen)
    rw [hnone, List.append_nil, ← hnone]
    rfl
  | succ k ih =>
    intro s hreset hphase hdelay hqueue hready hlen
    have hwait : s.transferResponse.awaitRequest = s.transferResponse :=
      State.awaitRequest_of_none (by simpa using hdelay) (by simpa using hqueue)
    have hlen' : s.transferResponse.rspQueue.length ≤ k := by
      rw [State.transferResponse_rspQueue_length hready]
      omega
    rw [run_succ _ (step_idle hreset hphase), hwait, ih s.transferResponse (by simpa using hreset)
      (by simpa using hphase) (by simpa using hdelay) (by simpa using hqueue) (by simpa using hready) hlen',
      State.transferResponse_taken_append_waiting]
    simp

/-- Settles O18: after the run that answers every request at most one response more than at its start waits, and the
remaining steps hand them over. -/
theorem everyPresentedRequestIsDelivered : Obligations.EveryPresentedRequestIsDelivered := by
  intro s hreset hphase hready hanswerable
  obtain ⟨t, hprogress, hidle, hzero, hempty, hrun⟩ := run_answers (s.rspQueue.length + 1) hreset hphase hanswerable
  have hbound := hprogress.ready hready
  have hdrain := run_drain (s.rspQueue.length + 1) t (hprogress.resetAsserted_eq.trans hreset) hidle hzero hempty
    (hprogress.rspReady_eq.trans hready) (by omega)
  refine (hrun.trans hdrain).trans (congrArg _ ?_)
  rw [hprogress.order, hprogress.frame, hidle, hzero, hempty, ← hphase]

end Sys2Proof.Machine

/-! PROOFS. What 40_bitfield.md claims about the bits of a packed word, and 20_memory.md about the bytes of a header. -/
namespace Sys2Proof.Machine

section PackedBits
variable {ν : Type}

/-- Bit j of a field's input shifted to its place. -/
theorem shiftedInput_testBit (masked : Bool) (lo w v j : Nat) :
    (packInput masked w v <<< lo).testBit j =
      (decide (lo ≤ j) && (if masked then v % 2 ^ w else v).testBit (j - lo)) := by
  rw [packInput_eq, trunc, Nat.testBit_shiftLeft]

/-- The OR of the shifted inputs, bit by bit (40_bitfield.md R102). -/
theorem packOr_testBit (L : Layout ν) (v : ν → Nat) (m : ν → Bool) (j : Nat) :
    (packOr L v m).testBit j = L.any fun f =>
      decide (f.lo ≤ j) && (if m f.name then v f.name % 2 ^ f.width else v f.name).testBit (j - f.lo) := by
  induction L with
  | nil => exact Nat.zero_testBit j
  | cons f L ih => rw [packOr_cons, Nat.testBit_or, shiftedInput_testBit, ih, List.any_cons]

theorem pack_getLsbD (L : Layout ν) (N : Nat) (v : ν → Nat) (m : ν → Bool) (j : Nat) :
    (pack L N v m).getLsbD j = (decide (j < N) && (packOr L v m).testBit j) := by
  rw [pack, BitVec.getLsbD_ofNat]

/-- A bit is covered when it lies in some field (40_bitfield.md R100). -/
theorem covered_testBit_iff (L : Layout ν) (j : Nat) :
    (covered L).testBit j = true ↔ ∃ f ∈ L, f.lo ≤ j ∧ j < f.lo + f.width := by
  induction L with
  | nil => simp
  | cons f L ih =>
    have hfield : (maskBits f.width <<< f.lo).testBit j = true ↔ f.lo ≤ j ∧ j < f.lo + f.width := by
      rw [maskBits, Nat.testBit_shiftLeft, Nat.testBit_two_pow_sub_one, Bool.and_eq_true, decide_eq_true_iff,
        decide_eq_true_iff]
      omega
    rw [covered_cons, Nat.testBit_or, Bool.or_eq_true, hfield, ih, List.exists_mem_cons_iff]

/-- A bit that is not covered lies in none of the fields. -/
theorem outside_of_not_covered {L : Layout ν} {j : Nat} (h : (covered L).testBit j = false) :
    ∀ f ∈ L, j < f.lo ∨ f.lo + f.width ≤ j := by
  intro f hf
  by_contra hinside
  exact Bool.eq_false_iff.1 h ((covered_testBit_iff L j).2 ⟨f, hf, by omega, by omega⟩)

/-- The masked packer writes 0 to a bit that is not covered (40_bitfield.md R105). -/
theorem packMasked_getLsbD_of_not_covered {L : Layout ν} (N : Nat) (v : ν → Nat) {j : Nat}
    (h : (covered L).testBit j = false) : (packMasked L N v).getLsbD j = false := by
  rw [packMasked, pack_getLsbD, packOr_masked_testBit_of_outside L v j (outside_of_not_covered h), Bool.and_false]

end PackedBits

/-- Settles O26: the OR bit by bit, cut at N. -/
theorem packedBitIsTheOrOfTheFieldBits : Obligations.PackedBitIsTheOrOfTheFieldBits := by
  intro ν L N v m j
  rw [pack_getLsbD, packOr_testBit]

/-- Settles O28: no field reaches a bit that is not covered, and these bits of the two headers are not. -/
theorem maskedPackClearsUncoveredBits : Obligations.MaskedPackClearsUncoveredBits := by
  refine ⟨fun _ _ N v _ => packMasked_getLsbD_of_not_covered N v, ?spp, ?csp⟩
  case spp =>
    intro v
    have huncovered : ∀ i < 5, (covered sppLayout).testBit (11 + i) = false := by decide
    apply BitVec.eq_of_getLsbD_eq
    intro i hi
    rw [BitVec.getLsbD_extractLsb', packMasked_getLsbD_of_not_covered 48 v (huncovered i hi), Bool.and_false,
      BitVec.getLsbD_zero]
  case csp => exact fun v => packMasked_getLsbD_of_not_covered 32 v (by decide)

section InRange
variable {ν : Type} {L : Layout ν} {N : Nat}

/-- The OR of two numbers that share no bit is their sum. -/
theorem or_eq_add_of_disjoint_bits {a b : Nat} (h : ∀ j, a.testBit j = false ∨ b.testBit j = false) :
    a ||| b = a + b := by
  have ha : a < 2 ^ (a + b) := (Nat.le_add_right a b).trans_lt Nat.lt_two_pow_self
  have hb : b < 2 ^ (a + b) := (Nat.le_add_left b a).trans_lt Nat.lt_two_pow_self
  have hand : a &&& b = 0 := by
    apply Nat.eq_of_testBit_eq
    intro j
    rw [Nat.testBit_and, Nat.zero_testBit, Bool.and_eq_false_iff]
    exact h j
  have hwords : BitVec.ofNat (a + b) a &&& BitVec.ofNat (a + b) b = 0#(a + b) := by rw [← BitVec.ofNat_and, hand]
  have hsum := BitVec.toNat_add_of_and_eq_zero hwords
  rw [BitVec.add_eq_or_of_and_eq_zero _ _ hwords, BitVec.toNat_or, BitVec.toNat_ofNat, BitVec.toNat_ofNat,
    Nat.mod_eq_of_lt ha, Nat.mod_eq_of_lt hb] at hsum
  exact hsum

/-- The masked packer's OR stays below `2^N`: every field does (40_bitfield.md R100). -/
theorem packOr_masked_lt (v : ν → Nat) (hwf : L.WellFormed N) : (packOr L v fun _ => true) < 2 ^ N := by
  refine Nat.lt_pow_two_of_testBit _ fun j hj => packOr_masked_testBit_of_outside L v j fun f hf => ?_
  have hbounds := hwf.1 f hf
  unfold FieldDesc.hi at hbounds
  omega

/-- The fields of a well-formed layout do not overlap, so the OR of in-range values is their sum (R106). -/
theorem packOr_masked_eq_sum (v : ν → Nat) (hwf : L.WellFormed N) (hrange : ∀ f ∈ L, v f.name < 2 ^ f.width) :
    (packOr L v fun _ => true) = (L.map fun f => v f.name * 2 ^ f.lo).sum := by
  induction L with
  | nil => rfl
  | cons f L ih =>
    obtain ⟨hbounds, hpairs⟩ := hwf
    obtain ⟨hfirst, hpairsTail⟩ := List.pairwise_cons.1 hpairs
    have hboundsTail := fun g (hg : g ∈ L) => hbounds g (List.mem_cons_of_mem f hg)
    have htail := ih ⟨hboundsTail, hpairsTail⟩ fun g hg => hrange g (List.mem_cons_of_mem f hg)
    have hterm : packInput true f.width (v f.name) <<< f.lo = v f.name * 2 ^ f.lo := by
      rw [packInput_of_lt true (hrange f List.mem_cons_self), Nat.shiftLeft_eq]
    have hapart : ∀ j, (packInput true f.width (v f.name) <<< f.lo).testBit j = false ∨
        (packOr L v fun _ => true).testBit j = false := by
      intro j
      by_cases hj : f.lo ≤ j ∧ j < f.lo + f.width
      · refine .inr (packOr_masked_testBit_of_outside L v j fun g hg => ?_)
        have := (FieldDesc.disjoint_iff f g (hbounds f List.mem_cons_self).1 (hboundsTail g hg).1).1 (hfirst g hg)
        omega
      · exact .inl (by rw [maskedTerm_testBit, decide_eq_false hj, Bool.false_and])
    rw [packOr_cons, or_eq_add_of_disjoint_bits hapart, hterm, htail, List.map_cons, List.sum_cons]

/-- On in-range values of a well-formed layout the masked word is the sum of the shifted values (R106). -/
theorem packMasked_toNat_of_inRange (v : ν → Nat) (hwf : L.WellFormed N)
    (hrange : ∀ f ∈ L, v f.name < 2 ^ f.width) :
    (packMasked L N v).toNat = (L.map fun f => v f.name * 2 ^ f.lo).sum := by
  rw [packMasked, pack, BitVec.toNat_ofNat, Nat.mod_eq_of_lt (packOr_masked_lt v hwf),
    packOr_masked_eq_sum v hwf hrange]

/-- On in-range values the mask selector does not matter (R106). -/
theorem pack_eq_packMasked_of_inRange (v : ν → Nat) (m : ν → Bool) (hrange : ∀ f ∈ L, v f.name < 2 ^ f.width) :
    pack L N v m = packMasked L N v :=
  pack_eq_of_masks_agree_or_fits L N v m _ fun f hf => .inr (hrange f hf)

end InRange

/-- Settles O29: every mask selector gives the masked word, which is the sum. -/
theorem inRangePackIsTheSumUnderAnyMask : Obligations.InRangePackIsTheSumUnderAnyMask := by
  intro ν L N v m hwf hrange
  have hmasked := pack_eq_packMasked_of_inRange (N := N) v m hrange
  exact ⟨hmasked, hmasked ▸ packMasked_toNat_of_inRange v hwf hrange⟩

/-- Settles O30: the field's bits of the word are the low bits of its input. -/
theorem unpackAfterMaskedPackTruncates : Obligations.UnpackAfterMaskedPackTruncates := by
  intro ν L N v hwf f hf
  rw [unpack_packMasked L v hwf f hf, BitVec.toNat_ofNat]

/-- Packing what was unpacked from a word gives its covered bits, by whether a bit lies in a field (R108). -/
theorem packMasked_of_unpack {ν : Type} {L : Layout ν} {N : Nat} (word : BitVec N) (v : ν → Nat)
    (hwf : L.WellFormed N) (hv : ∀ f ∈ L, v f.name = (unpack word f).toNat) :
    packMasked L N v = word &&& BitVec.ofNat N (covered L) := by
  apply BitVec.eq_of_getLsbD_eq
  intro j hj
  rw [BitVec.getLsbD_and, BitVec.getLsbD_ofNat, decide_eq_true hj, Bool.true_and]
  cases hcovered : (covered L).testBit j with
  | false => rw [packMasked_getLsbD_of_not_covered N v hcovered, Bool.and_false]
  | true =>
    obtain ⟨f, hf, hlo, hhi⟩ := (covered_testBit_iff L j).1 hcovered
    obtain ⟨i, rfl⟩ := Nat.exists_eq_add_of_le hlo
    have hi : i < f.width := by omega
    calc (packMasked L N v).getLsbD (f.lo + i)
      _ = (v f.name).testBit i := by
        rw [packMasked, pack_getLsbD, decide_eq_true hj, Bool.true_and, packOr_masked_testBit_of_mem L v hwf f hf i hi]
      _ = (unpack word f).getLsbD i := by rw [hv f hf, BitVec.testBit_toNat]
      _ = (word.getLsbD (f.lo + i) && true) := by
        rw [unpack_getLsbD, decide_eq_true hi, Bool.true_and, Bool.and_true]

/-- Settles O31: by whether a bit lies in a field. -/
theorem packAfterUnpackKeepsCoveredBits : Obligations.PackAfterUnpackKeepsCoveredBits :=
  fun _ _ _ word v => packMasked_of_unpack word v

/-- `CSP_LAYOUT` is well-formed over the 32 header bits (40_bitfield.md R100). -/
theorem cspLayout_wellFormed : cspLayout.WellFormed 32 := by decide

/-- Settles O33: each layout's bounds and pairs are checked by evaluation. -/
theorem layoutsAreWellFormed : Obligations.LayoutsAreWellFormed :=
  ⟨sppLayout_wellFormed, cspLayout_wellFormed⟩

/-- As many bytes with the same big-endian value are the same bytes. -/
theorem bigEndian_injective : ∀ {A B : Bytes}, A.length = B.length → bigEndian A = bigEndian B → A = B
  | [], [], _, _ => rfl
  | a :: A, b :: B, hlen, hvalue => by
    have hlen : A.length = B.length := Nat.succ.inj hlen
    have hA := bigEndian_lt A
    have hB := bigEndian_lt B
    rw [bigEndian_cons, bigEndian_cons, hlen] at hvalue
    rw [hlen] at hA
    have hpos : 0 < 256 ^ B.length := hA.pos
    have hfirst : a.toNat = b.toNat := by
      have h := congrArg (· / 256 ^ B.length) hvalue
      simpa only [Nat.mul_add_div hpos, Nat.mul_comm _ (256 ^ B.length), Nat.div_eq_of_lt hA, Nat.div_eq_of_lt hB,
        Nat.add_zero] using h
    rw [hfirst] at hvalue
    rw [BitVec.eq_of_toNat_eq hfirst, bigEndian_injective hlen (Nat.add_left_cancel hvalue)]

/-- The bytes of a value are the n bytes whose big-endian value it is. -/
theorem bytesOf_eq_of_toNat_eq {n : Nat} {v : BitVec (8 * n)} {B : Bytes} (hlen : B.length = n)
    (hvalue : v.toNat = bigEndian B) : bytesOf n v = B :=
  bigEndian_injective ((bytesOf_length n v).trans hlen.symm) ((bigEndian_bytesOf n v).trans hvalue)

/-- The bytes of the header word read from a buffer are the buffer's first bytes (20_memory.md R53). -/
theorem bytesOf_memRead {B : Bytes} {n : Nat} (hlen : n ≤ B.length) : bytesOf n (memRead B 0 n) = B.take n := by
  apply bytesOf_eq_of_toNat_eq (List.length_take_of_le hlen)
  rw [memRead_toNat B 0 n (by omega), List.drop_zero]

/-- Settles O35: a byte of the buffer is a byte of the header word's bytes, and the stream numbers the bits of a byte
from its most significant one. -/
theorem headerIsReadBigEndian : Obligations.HeaderIsReadBigEndian := by
  intro B n hlen j b hj hb
  have hbyte : (memRead B 0 n).extractLsb' (8 * n - 8 - 8 * j) 8 = b := by
    have h := bytesOf_getElem? (memRead B 0 n) hj
    rw [bytesOf_memRead hlen, List.getElem?_take_of_lt hj, hb] at h
    exact (Option.some.inj h).symm
  refine ⟨hbyte, fun k hk => ?_⟩
  have hposition : 8 * n - 1 - (8 * j + k) = 8 * n - 8 - 8 * j + (7 - k) := by omega
  rw [← hbyte, BitVec.getLsbD_extractLsb', decide_eq_true (by omega), Bool.true_and, streamBit, hposition]

end Sys2Proof.Machine

/-! PROOFS. What 30_encoding.md and 41_space_packet.md claim about the SPP header bytes and the two round trips. -/
namespace Sys2Proof.Machine

/-- Words that agree on the covered bits of a layout agree on its fields (40_bitfield.md R101). -/
theorem unpack_congr_of_covered {ν : Type} {L : Layout ν} {N : Nat} {word word' : BitVec N}
    (h : word &&& BitVec.ofNat N (covered L) = word' &&& BitVec.ofNat N (covered L)) :
    ∀ f ∈ L, unpack word f = unpack word' f := by
  refine fun f hf => unpack_congr f fun j hlo hhi => ?_
  by_cases hj : j < N
  · have hcovered : (covered L).testBit j = true := (covered_testBit_iff L j).2 ⟨f, hf, hlo, hhi⟩
    have hbit := congrArg (BitVec.getLsbD · j) h
    simpa only [BitVec.getLsbD_and, BitVec.getLsbD_ofNat, hcovered, decide_eq_true hj, Bool.and_true] using hbit
  · rw [BitVec.getLsbD_of_ge _ _ (by omega), BitVec.getLsbD_of_ge _ _ (by omega)]

/-- A word is kept by a mask exactly when it has no bit outside the mask. -/
theorem and_eq_self_iff {w : Nat} (x m : BitVec w) : x &&& m = x ↔ x &&& ~~~m = 0#w := by
  constructor
  · intro h
    rw [← h, BitVec.and_assoc, BitVec.and_not_self]
    exact BitVec.and_zero
  · intro h
    calc x &&& m
      _ = (x &&& m) ||| (x &&& ~~~m) := by rw [h, BitVec.or_zero]
      _ = x := by rw [← BitVec.and_or_distrib_left, BitVec.or_not_self, BitVec.and_allOnes]

section SppHeaderBytes
variable (b0 b1 b2 b3 b4 b5 : Byte)

/-- The covered bits of the SPP header: all but bits 7 to 3 of byte 4 (30_encoding.md R74). -/
theorem sppHeader_and_covered :
    (b0 ++ b1) ++ (b2 ++ b3) ++ (b4 ++ b5) &&& BitVec.ofNat 48 (covered sppLayout) =
      (b0 ++ b1) ++ (b2 ++ b3) ++ ((b4 &&& 0x07#8) ++ b5) := by
  have hmask : BitVec.ofNat 48 (covered sppLayout) =
      (BitVec.allOnes 8 ++ BitVec.allOnes 8) ++ (BitVec.allOnes 8 ++ BitVec.allOnes 8) ++
        (0x07#8 ++ BitVec.allOnes 8) := by decide
  have hwords (x y z x' y' z' : BitVec 16) :
      (x ++ y ++ z) &&& (x' ++ y' ++ z') = (x &&& x') ++ (y &&& y') ++ (z &&& z') := by
    rw [BitVec.and_append, BitVec.and_append]
  rw [hmask]
  refine (hwords _ _ _ _ _ _).trans ?_
  rw [BitVec.and_append, BitVec.and_append, BitVec.and_append]
  simp only [BitVec.and_allOnes]

/-- Six bytes are the big-endian bytes of their header word. -/
theorem bytesOf_sppHeader : bytesOf 6 ((b0 ++ b1) ++ (b2 ++ b3) ++ (b4 ++ b5)) = [b0, b1, b2, b3, b4, b5] := by
  rw [← memRead_sppHeader b0 b1 b2 b3 b4 b5 []]
  exact bytesOf_memRead (Nat.le_refl 6)

/-- A one-bit field's packet type is decided by that bit (30_encoding.md R76). -/
theorem toPacketType_extractLsb' {n : Nat} (x : BitVec n) (i : Nat) :
    toPacketType (x.extractLsb' i 1) = if x.getLsbD i then .telecommand else .telemetry := by
  have hbit : x.getLsbD i = (x.extractLsb' i 1).getLsbD 0 := by simp
  rw [hbit]
  generalize x.extractLsb' i 1 = field
  revert field
  decide

/-- A two-bit field's sequence flags are decided by its bits (30_encoding.md R77). -/
theorem toSequenceFlags_extractLsb' {n : Nat} (x : BitVec n) (i : Nat) :
    toSequenceFlags (x.extractLsb' i 2) =
      match x.getLsbD (i + 1), x.getLsbD i with
      | false, false => .continuation
      | false, true => .firstSegment
      | true, false => .lastSegment
      | true, true => .unsegmented := by
  have hhigh : x.getLsbD (i + 1) = (x.extractLsb' i 2).getLsbD 1 := by simp
  have hlow : x.getLsbD i = (x.extractLsb' i 2).getLsbD 0 := by simp
  rw [hhigh, hlow]
  generalize x.extractLsb' i 2 = field
  revert field
  decide

/-- The record of a header word by the byte column of 30_encoding.md R73. -/
theorem spacePacketOf_headerBytes (payload : Bytes) :
    spacePacketOf ((b0 ++ b1) ++ (b2 ++ b3) ++ (b4 ++ b5)) payload =
      { version := 0#3
        packetType := if b0.getLsbD 4 then .telecommand else .telemetry
        secondaryHeaderFlag := b0.extractLsb' 3 1
        apid := b0.extractLsb' 0 3 ++ b1
        sequenceFlags :=
          match b2.getLsbD 7, b2.getLsbD 6 with
          | false, false => .continuation
          | false, true => .firstSegment
          | true, false => .lastSegment
          | true, true => .unsegmented
        sequenceCount := b2.extractLsb' 0 6 ++ b3
        dataLength := b4.extractLsb' 0 3 ++ b5
        dataField := payload } := by
  unfold spacePacketOf
  congr 1
  case e_packetType =>
    rw [unpack_firstWord _ _ _ SppDesc.packetType (by decide), BitVec.extractLsb'_append_eq_of_le (by decide)]
    exact toPacketType_extractLsb' b0 4
  case e_secondaryHeaderFlag =>
    exact (unpack_firstWord _ _ _ SppDesc.secondaryHeaderFlag (by decide)).trans
      (BitVec.extractLsb'_append_eq_of_le (by decide))
  case e_apid =>
    exact (unpack_firstWord _ _ _ SppDesc.apid (by decide)).trans (extractLsb'_append_low 3 b0 b1)
  case e_sequenceFlags =>
    rw [unpack_secondWord _ _ _ SppDesc.sequenceFlags (by decide) (by decide),
      BitVec.extractLsb'_append_eq_of_le (by decide)]
    exact toSequenceFlags_extractLsb' b2 6
  case e_sequenceCount =>
    exact (unpack_secondWord _ _ _ SppDesc.sequenceCount (by decide) (by decide)).trans
      (extractLsb'_append_low 6 b2 b3)
  case e_dataLength =>
    exact (unpack_thirdWord _ _ _ SppDesc.dataLength (by decide)).trans (extractLsb'_append_low 3 b4 b5)

end SppHeaderBytes

/-- Settles O37: six header bytes and at most 65529 more are an accepted length, and the header word is those bytes. -/
theorem sppParseReturnsTheHeaderFields : Obligations.SppParseReturnsTheHeaderFields := by
  intro b0 b1 b2 b3 b4 b5 payload s hlen hversion
  have hzero : unpack (memRead (b0 :: b1 :: b2 :: b3 :: b4 :: b5 :: payload) 0 6) SppDesc.version = 0#3 :=
    (unpack_version_memRead b0 (b1 :: b2 :: b3 :: b4 :: b5 :: payload)
      (Nat.le_add_left 5 payload.length)).trans hversion
  have hparse := sppParse_of_versionZero (b0 :: b1 :: b2 :: b3 :: b4 :: b5 :: payload)
    (Nat.le_add_left 6 payload.length) (Nat.add_le_add_right hlen 6) hzero
  rw [memRead_sppHeader, spacePacketOf_headerBytes] at hparse
  exact (answers_iff _ _ _).2 hparse

/-- `SPP_PARSE` reads of a buffer its length, the fields of its header, and its payload (41_space_packet.md R121). -/
theorem sppParse_congr {B B' : Bytes} (hlen : B.length = B'.length) (hpayload : B.drop hdrSpp = B'.drop hdrSpp)
    (hfields : ∀ f ∈ sppLayout, unpack (memRead B 0 6) f = unpack (memRead B' 0 6) f) : sppParse B = sppParse B' := by
  have hrecord : spacePacketOf (memRead B 0 6) (B.drop hdrSpp) = spacePacketOf (memRead B' 0 6) (B'.drop hdrSpp) := by
    unfold spacePacketOf
    rw [hfields SppDesc.packetType (by decide), hfields SppDesc.secondaryHeaderFlag (by decide),
      hfields SppDesc.apid (by decide), hfields SppDesc.sequenceFlags (by decide),
      hfields SppDesc.sequenceCount (by decide), hfields SppDesc.dataLength (by decide), hpayload]
  unfold sppParse sppParseHeader withLengthChecked
  rw [hfields SppDesc.version (by decide), hrecord, hlen]

/-- Settles O43: bits 7 to 3 of byte 4 are not covered by the layout. -/
theorem sppParseIgnoresTheUnstoredBits : Obligations.SppParseIgnoresTheUnstoredBits := by
  intro b0 b1 b2 b3 b4 b4' b5 payload s hstored
  have hparse : sppParse (b0 :: b1 :: b2 :: b3 :: b4' :: b5 :: payload) =
      sppParse (b0 :: b1 :: b2 :: b3 :: b4 :: b5 :: payload) := by
    refine sppParse_congr rfl rfl (unpack_congr_of_covered ?_)
    rw [memRead_sppHeader, memRead_sppHeader, sppHeader_and_covered, sppHeader_and_covered, hstored]
  exact ⟨_, answers_operation _ s, (answers_iff _ _ _).2 hparse⟩

/-- The header word of a record as a sum of its truncated inputs at their places (40_bitfield.md R106). -/
theorem sppHeaderWord_toNat (S : SppSerIn) : (sppHeaderWord S).toNat =
    2 ^ 45 * (S.version % 8) + 2 ^ 44 * (fromPacketType S.packetType).toNat + 2 ^ 43 * (S.secondaryHeaderFlag % 2) +
      2 ^ 32 * (S.apid % 2048) + 2 ^ 30 * (fromSequenceFlags S.sequenceFlags).toNat +
      2 ^ 16 * (S.sequenceCount % 16384) + S.dataLength % 2048 := by
  have hrange : ∀ f ∈ sppLayout, sppValues (truncatedSpp S) f.name < 2 ^ f.width := by
    have hpacketType := (fromPacketType S.packetType).isLt
    have hsequenceFlags := (fromSequenceFlags S.sequenceFlags).isLt
    simp only [sppLayout, List.forall_mem_cons, sppValues, truncatedSpp]
    exact ⟨Nat.mod_lt _ (by decide), hpacketType, Nat.mod_lt _ (by decide), Nat.mod_lt _ (by decide),
      hsequenceFlags, Nat.mod_lt _ (by decide), Nat.mod_lt _ (by decide), nofun⟩
  rw [← sppHeaderWord_truncatedSpp, sppHeaderWord, packMasked_toNat_of_inRange _ sppLayout_wellFormed hrange]
  simp only [sppLayout, List.map_cons, List.map_nil, List.sum_cons, List.sum_nil, sppValues, truncatedSpp,
    Nat.mul_comm _ (2 ^ _)]
  omega

/-- The six header bytes by the byte column of 30_encoding.md R73: read big-endian they are the sum that the header
word is. The enums' encodings stand at their places in their bytes. -/
theorem bytesOf_sppHeaderWord (S : SppSerIn) {typeBits flagBits : Nat}
    (htype : typeBits = (fromPacketType S.packetType).toNat * 16)
    (hflags : flagBits = (fromSequenceFlags S.sequenceFlags).toNat * 64) :
    bytesOf 6 (sppHeaderWord S) =
      [BitVec.ofNat 8 (S.version % 8 * 32 + typeBits + S.secondaryHeaderFlag % 2 * 8 + S.apid % 2048 / 256),
        BitVec.ofNat 8 (S.apid % 256),
        BitVec.ofNat 8 (flagBits + S.sequenceCount % 16384 / 256),
        BitVec.ofNat 8 (S.sequenceCount % 256),
        BitVec.ofNat 8 (S.dataLength % 2048 / 256),
        BitVec.ofNat 8 (S.dataLength % 256)] := by
  have htypeLt := (fromPacketType S.packetType).isLt
  have hflagsLt := (fromSequenceFlags S.sequenceFlags).isLt
  refine bytesOf_eq_of_toNat_eq rfl ((sppHeaderWord_toNat S).trans ?_)
  simp only [bigEndian_cons, bigEndian_nil, List.length_cons, List.length_nil, BitVec.toNat_ofNat]
  omega

/-- Settles O44: the header bytes, with each enum's encoding by cases. -/
theorem sppSerializeWritesTheHeaderBytes : Obligations.SppSerializeWritesTheHeaderBytes := by
  intro S s
  rw [← bytesOf_sppHeaderWord S ?type ?flags]
  case type => cases S.packetType <;> rfl
  case flags => cases S.sequenceFlags <;> rfl
  exact answers_sppSerialize S s

/-- The record that a header word written by `SPP_SERIALIZE` is read back to: every input cut to its field (R131). -/
theorem spacePacketOf_sppHeaderWord (S : SppSerIn) : spacePacketOf (sppHeaderWord S) S.dataField =
    { version := 0#3
      packetType := S.packetType
      secondaryHeaderFlag := BitVec.ofNat 1 S.secondaryHeaderFlag
      apid := BitVec.ofNat 11 S.apid
      sequenceFlags := S.sequenceFlags
      sequenceCount := BitVec.ofNat 14 S.sequenceCount
      dataLength := BitVec.ofNat 11 S.dataLength
      dataField := S.dataField } := by
  have hfield := unpack_sppHeaderWord S
  unfold spacePacketOf
  congr 1
  case e_packetType =>
    rw [hfield SppDesc.packetType (by decide), sppValues, ofNat_toNat_same, toPacketType_fromPacketType]
  case e_secondaryHeaderFlag => exact hfield SppDesc.secondaryHeaderFlag (by decide)
  case e_apid => exact hfield SppDesc.apid (by decide)
  case e_sequenceFlags =>
    rw [hfield SppDesc.sequenceFlags (by decide), sppValues, ofNat_toNat_same, toSequenceFlags_fromSequenceFlags]
  case e_sequenceCount => exact hfield SppDesc.sequenceCount (by decide)
  case e_dataLength => exact hfield SppDesc.dataLength (by decide)

/-- The parse of a serialized record, by its payload's length and its version modulo 8 (41_space_packet.md R136). -/
theorem sppParse_serialized (S : SppSerIn) :
    sppParse (bytesOf 6 (sppHeaderWord S) ++ S.dataField) =
      if 65529 < S.dataField.length then ⟨.tooLong, .none⟩
      else if S.version % 8 ≠ 0 then ⟨.invalidVersion, .none⟩
      else ⟨.ok, .spacePacket
        { version := 0#3
          packetType := S.packetType
          secondaryHeaderFlag := BitVec.ofNat 1 S.secondaryHeaderFlag
          apid := BitVec.ofNat 11 S.apid
          sequenceFlags := S.sequenceFlags
          sequenceCount := BitVec.ofNat 14 S.sequenceCount
          dataLength := BitVec.ofNat 11 S.dataLength
          dataField := S.dataField }⟩ := by
  have hread : memRead (bytesOf 6 (sppHeaderWord S) ++ S.dataField) 0 6 = sppHeaderWord S :=
    memRead_bytesOf_append 6 _ _
  have hversion : (unpack (sppHeaderWord S) SppDesc.version).toNat = S.version % 8 := by
    rw [unpack_sppHeaderWord S SppDesc.version (by decide), BitVec.toNat_ofNat]
    rfl
  have hlen : (bytesOf 6 (sppHeaderWord S) ++ S.dataField).length = 6 + S.dataField.length := by
    rw [List.length_append, bytesOf_length]
  have hpayload : (bytesOf 6 (sppHeaderWord S) ++ S.dataField).drop 6 = S.dataField :=
    List.drop_left' (bytesOf_length 6 _)
  have hcases := sppParse_cases (bytesOf 6 (sppHeaderWord S) ++ S.dataField)
  rw [hread, hversion, hlen, hpayload, spacePacketOf_sppHeaderWord] at hcases
  rcases hcases with ⟨_, h⟩ | ⟨_, _, h⟩ | ⟨_, _, hnonzero, h⟩ | ⟨_, _, hzero, h⟩
  · omega
  · rw [h, if_pos (by omega), raise]
  · rw [h, if_neg (by omega), if_pos hnonzero, raise]
  · rw [h, if_neg (by omega), if_neg (not_not.2 hzero), succeed]

/-- Settles O48: the parse of the answer's bytes. -/
theorem sppSerializeThenParse : Obligations.SppSerializeThenParse :=
  fun S s _ => ⟨_, answers_sppSerialize S s, (answers_iff _ _ _).2 (sppParse_serialized S)⟩

/-- What an answer with a record says of the buffer (41_space_packet.md R121 to R123, R128). -/
theorem of_answers_spacePacket {B : Bytes} {P : SpacePacket} {s : State}
    (hanswer : Answers (.sppParse ⟨B⟩) s ⟨.ok, .spacePacket P⟩) :
    6 ≤ B.length ∧ B.length ≤ 65535 ∧ unpack (memRead B 0 6) SppDesc.version = 0#3 ∧
      P = spacePacketOf (memRead B 0 6) (B.drop 6) := by
  have h : sppParse B = ⟨.ok, .spacePacket P⟩ := (answers_iff _ _ _).1 hanswer
  rcases sppParse_cases B with ⟨_, h'⟩ | ⟨_, _, h'⟩ | ⟨_, _, _, h'⟩ | ⟨hmin, hmax, hversion, h'⟩
  all_goals rw [h'] at h; cases h
  exact ⟨hmin, hmax, BitVec.eq_of_toNat_eq hversion, rfl⟩

/-- The embedded record of an accepted header gives each field its own value back (10_state.md R37). -/
theorem sppValues_embedSpp (H : BitVec 48) (payload : Bytes) (hversion : unpack H SppDesc.version = 0#3) :
    ∀ f ∈ sppLayout, sppValues (embedSpp (spacePacketOf H payload)) f.name = (unpack H f).toNat := by
  simp [sppLayout, sppValues, embedSpp, spacePacketOf, fromPacketType_toPacketType,
    fromSequenceFlags_toSequenceFlags, hversion]

/-- A buffer of six bytes or more, byte by byte. -/
theorem exists_sppHeader_bytes {B : Bytes} (hlen : 6 ≤ B.length) :
    ∃ b0 b1 b2 b3 b4 b5 payload, B = b0 :: b1 :: b2 :: b3 :: b4 :: b5 :: payload := by
  rcases B with _ | ⟨b0, _ | ⟨b1, _ | ⟨b2, _ | ⟨b3, _ | ⟨b4, _ | ⟨b5, payload⟩⟩⟩⟩⟩⟩
  iterate 6 · simp at hlen
  exact ⟨b0, b1, b2, b3, b4, b5, payload, rfl⟩

/-- Settles O49: the header word written is the covered bits of the one read. -/
theorem sppParseThenSerialize : Obligations.SppParseThenSerialize := by
  intro B P s t hanswer
  obtain ⟨hmin, _, hversion, rfl⟩ := of_answers_spacePacket hanswer
  obtain ⟨b0, b1, b2, b3, b4, b5, payload, rfl⟩ := exists_sppHeader_bytes hmin
  have hheader : bytesOf 6 (sppHeaderWord (embedSpp (spacePacketOf
      (memRead (b0 :: b1 :: b2 :: b3 :: b4 :: b5 :: payload) 0 6) payload))) = [b0, b1, b2, b3, b4 &&& 0x07#8, b5] := by
    rw [sppHeaderWord, packMasked_of_unpack _ _ sppLayout_wellFormed (sppValues_embedSpp _ payload hversion),
      memRead_sppHeader, sppHeader_and_covered, bytesOf_sppHeader]
  have hout := answers_sppSerialize (embedSpp (spacePacketOf
      (memRead (b0 :: b1 :: b2 :: b3 :: b4 :: b5 :: payload) 0 6) payload)) t
  rw [hheader] at hout
  refine ⟨_, b4, hout, rfl, rfl, ?unchanged⟩
  case unchanged =>
    have hbyte := and_eq_self_iff b4 0x07#8
    simpa [embedSpp, spacePacketOf] using hbyte

/-- Settles O50: no field of such a record is cut, and an accepted buffer of at most 65535 bytes has six of header. -/
theorem sppRecordsRoundTrip : Obligations.SppRecordsRoundTrip := by
  refine ⟨?roundTrip, ?parsed⟩
  case roundTrip =>
    intro P s t hversion hpayload
    have hfits : ¬ 65529 < (embedSpp P).dataField.length := Nat.not_lt.2 hpayload
    have hzero : (embedSpp P).version % 8 = 0 := by rw [embedSpp, hversion]; rfl
    have hparse := sppParse_serialized (embedSpp P)
    rw [if_neg hfits, if_neg (not_not.2 hzero)] at hparse
    refine ⟨_, answers_sppSerialize (embedSpp P) s, (answers_iff _ _ _).2 (hparse.trans ?_)⟩
    simp only [embedSpp, ofNat_toNat_same, ← hversion]
  case parsed =>
    intro B P s hanswer
    obtain ⟨_, hmax, _, rfl⟩ := of_answers_spacePacket hanswer
    have hpayload : (B.drop 6).length ≤ 65529 := by rw [List.length_drop]; omega
    exact ⟨rfl, hpayload⟩

end Sys2Proof.Machine

/-! PROOFS. What 42_csp.md claims about the CSP header word and the two round trips, and what 10_state.md claims about
records that are presented again. -/
namespace Sys2Proof.Machine

section CspHeader
variable (b0 b1 b2 b3 : Byte)

/-- The covered bits of the CSP header: all but the top one (42_csp.md R154). -/
theorem cspHeader_and_covered :
    b0 ++ b1 ++ b2 ++ b3 &&& BitVec.ofNat 32 (covered cspLayout) = (b0 &&& 0x7F#8) ++ b1 ++ b2 ++ b3 := by
  have hmask : BitVec.ofNat 32 (covered cspLayout) =
      0x7F#8 ++ BitVec.allOnes 8 ++ BitVec.allOnes 8 ++ BitVec.allOnes 8 := by decide
  have hbytes (y0 y1 y2 y3 : Byte) :
      (b0 ++ b1 ++ b2 ++ b3) &&& (y0 ++ y1 ++ y2 ++ y3) = (b0 &&& y0) ++ (b1 &&& y1) ++ (b2 &&& y2) ++ (b3 &&& y3) := by
    rw [BitVec.and_append, BitVec.and_append, BitVec.and_append]
  rw [hmask]
  refine (hbytes _ _ _ _).trans ?_
  simp only [BitVec.and_allOnes]

/-- Four bytes are the big-endian bytes of their header word. -/
theorem bytesOf_cspHeader : bytesOf 4 (b0 ++ b1 ++ b2 ++ b3) = [b0, b1, b2, b3] := by
  rw [← memRead_cspHeader b0 b1 b2 b3 []]
  exact bytesOf_memRead (Nat.le_refl 4)

end CspHeader

/-- The record of a header word is read from its fields alone (42_csp.md R153). -/
theorem cspPacketOf_congr {W W' : BitVec 32} (payload : Bytes) (h : ∀ f ∈ cspLayout, unpack W f = unpack W' f) :
    cspPacketOf W payload = cspPacketOf W' payload := by
  unfold cspPacketOf
  rw [h CspDesc.priority (by decide), h CspDesc.source (by decide), h CspDesc.destination (by decide),
    h CspDesc.destinationPort (by decide), h CspDesc.sourcePort (by decide), h CspDesc.reserved (by decide),
    h CspDesc.hmac (by decide), h CspDesc.xtea (by decide), h CspDesc.rdp (by decide), h CspDesc.crc (by decide)]

/-- `CSP_PARSE` reads of a buffer its length, the fields of its header, and its payload (42_csp.md R151). -/
theorem cspParse_congr {B B' : Bytes} (hlen : B.length = B'.length) (hpayload : B.drop hdrCsp = B'.drop hdrCsp)
    (hfields : ∀ f ∈ cspLayout, unpack (memRead B 0 4) f = unpack (memRead B' 0 4) f) : cspParse B = cspParse B' := by
  unfold cspParse withLengthChecked
  rw [cspPacketOf_congr (B.drop hdrCsp) hfields, hpayload, hlen]

/-- A buffer of four bytes or more, byte by byte. -/
theorem exists_cspHeader_bytes {B : Bytes} (hlen : 4 ≤ B.length) :
    ∃ b0 b1 b2 b3 payload, B = b0 :: b1 :: b2 :: b3 :: payload := by
  rcases B with _ | ⟨b0, _ | ⟨b1, _ | ⟨b2, _ | ⟨b3, payload⟩⟩⟩⟩
  iterate 4 · simp at hlen
  exact ⟨b0, b1, b2, b3, payload, rfl⟩

/-- `CSP_PARSE` reads of byte 0 its low seven bits, at every length (42_csp.md R154). -/
theorem cspParse_congr_byte0 {b0 b0' : Byte} (rest : Bytes) (h : b0 &&& 0x7F#8 = b0' &&& 0x7F#8) :
    cspParse (b0 :: rest) = cspParse (b0' :: rest) := by
  by_cases hshort : (b0 :: rest).length < hdrCsp
  · have hshort' : (b0' :: rest).length < hdrCsp := hshort
    rw [cspParse, cspParse, withLengthChecked, withLengthChecked, if_pos hshort, if_pos hshort']
  · obtain ⟨_, b1, b2, b3, payload, hB⟩ := exists_cspHeader_bytes (Nat.le_of_not_lt hshort)
    cases hB
    refine cspParse_congr rfl rfl (unpack_congr_of_covered ?_)
    rw [memRead_cspHeader, memRead_cspHeader, cspHeader_and_covered, cspHeader_and_covered, h]

/-- Flipping bits outside a mask does not change what the mask keeps. -/
theorem xor_and_eq_of_and_eq_zero {w : Nat} (x : BitVec w) {y m : BitVec w} (h : y &&& m = 0#w) :
    (x ^^^ y) &&& m = x &&& m :=
  calc (x ^^^ y) &&& m
    _ = (x &&& m) ^^^ (y &&& m) := BitVec.eq_of_getElem_eq (by simp [Bool.and_xor_distrib_right])
    _ = x &&& m := by rw [h, BitVec.xor_zero]

/-- Settles O53: the flipped bit is not one of the low seven. -/
theorem cspParseIgnoresTheTopBit : Obligations.CspParseIgnoresTheTopBit := fun b0 rest s =>
  ⟨_, answers_operation _ s,
    (answers_iff _ _ _).2 (cspParse_congr_byte0 rest (xor_and_eq_of_and_eq_zero b0 (by decide)))⟩

/-- The four flags, packed, are a sum: each is one bit and masked (42_csp.md R157). -/
theorem packedFlags_eq_sum : ∀ hmac xtea rdp crc : Bool,
    packInput true 1 (fromBool hmac).toNat <<< 3 ||| (packInput true 1 (fromBool xtea).toNat <<< 2 |||
      (packInput true 1 (fromBool rdp).toNat <<< 1 ||| (packInput true 1 (fromBool crc).toNat <<< 0 ||| 0))) =
      hmac.toNat * 8 + xtea.toNat * 4 + rdp.toNat * 2 + crc.toNat := by
  decide

/-- The header word of `CSP_SERIALIZE`, term by term (42_csp.md R157). -/
theorem cspHeaderWord_toNat (maskSet : BitVec 6) (S : CspSerIn) :
    let field := fun (maskBit lo w v : Nat) => (if maskSet.getLsbD maskBit then v % 2 ^ w else v) <<< lo
    (cspHeaderWord maskSet S).toNat = (field 5 30 1 S.priority ||| field 4 25 5 S.source |||
      field 3 20 5 S.destination ||| field 2 14 6 S.destinationPort ||| field 1 8 6 S.sourcePort |||
      field 0 4 4 S.reserved |||
      (S.hmac.toNat * 8 + S.xtea.toNat * 4 + S.rdp.toNat * 2 + S.crc.toNat)) % 2 ^ 32 := by
  intro field
  rw [cspHeaderWord, pack, BitVec.toNat_ofNat, ← packedFlags_eq_sum]
  simp only [cspLayout, packOr_cons, packOr_nil, cspValues, cspMasked, packInput_eq (maskSet.getLsbD _), trunc, field,
    Nat.or_assoc]

/-- The bytes of a 32-bit word, by division (40_bitfield.md R109). -/
theorem bytesOf_four (v : BitVec 32) : bytesOf 4 v =
    [BitVec.ofNat 8 (v.toNat / 2 ^ 24), BitVec.ofNat 8 (v.toNat / 2 ^ 16), BitVec.ofNat 8 (v.toNat / 2 ^ 8),
      BitVec.ofNat 8 v.toNat] := by
  refine bytesOf_eq_of_toNat_eq rfl ?_
  have hlt := v.isLt
  simp only [bigEndian_cons, bigEndian_nil, List.length_cons, List.length_nil, BitVec.toNat_ofNat]
  omega

/-- Settles O54: the bytes of the header word, which is the OR term by term. -/
theorem cspSerializeWritesTheHeaderWord : Obligations.CspSerializeWritesTheHeaderWord := by
  intro S s field W
  have hW : (cspHeaderWord s.cspMaskSet S).toNat = W := cspHeaderWord_toNat s.cspMaskSet S
  have hanswer := answers_cspSerialize S s
  rwa [bytesOf_four, hW] at hanswer

/-- A bit of the CSP header word is set exactly when some field's bit lands there (40_bitfield.md R102). -/
theorem cspHeaderWord_getLsbD_iff (maskSet : BitVec 6) (S : CspSerIn) (j : Nat) :
    (cspHeaderWord maskSet S).getLsbD j = true ↔ j < 32 ∧ ∃ f ∈ cspLayout, ∃ k, j = f.lo + k ∧
      (cspValues S f.name).testBit k = true ∧ (cspMasked maskSet f.name = true → k < f.width) := by
  rw [cspHeaderWord, pack_getLsbD, packOr_testBit, Bool.and_eq_true, decide_eq_true_iff, List.any_eq_true]
  refine and_congr_right fun _ => exists_congr fun f => and_congr_right fun _ => ?_
  have hinput (k : Nat) : (if cspMasked maskSet f.name then cspValues S f.name % 2 ^ f.width
      else cspValues S f.name).testBit k = true ↔
      (cspValues S f.name).testBit k = true ∧ (cspMasked maskSet f.name = true → k < f.width) := by
    cases cspMasked maskSet f.name <;> simp [Nat.testBit_mod_two_pow, and_comm]
  rw [Bool.and_eq_true, decide_eq_true_iff, hinput]
  constructor
  · rintro ⟨hlo, hbit⟩
    exact ⟨j - f.lo, by omega, hbit⟩
  · rintro ⟨k, rfl, hbit⟩
    rw [Nat.add_sub_cancel_left]
    exact ⟨Nat.le_add_right _ _, hbit⟩

/-- Settles O55: both directions of the bit rule of the header word, which the answer begins with. -/
theorem cspUnmaskedBitsSpillUpwards : Obligations.CspUnmaskedBitsSpillUpwards := by
  intro S s
  refine ⟨_, answers_cspSerialize S s, ?_⟩
  rw [memRead_bytesOf_append]
  refine ⟨fun f hf k hunmasked hin hbit => ?_, fun j hset => ?_⟩
  · exact (cspHeaderWord_getLsbD_iff _ S _).2
      ⟨by omega, f, hf, k, rfl, hbit, fun hmasked => by simp [hunmasked] at hmasked⟩
  · exact ((cspHeaderWord_getLsbD_iff _ S j).1 hset).2

/-- The range duty says that every field's input fits its field (70_reset_and_hazards.md R216). -/
theorem cspValues_lt_of_inRange {S : CspSerIn} (hrange : S.inRange = true) :
    ∀ f ∈ cspLayout, cspValues S f.name < 2 ^ f.width := by
  obtain ⟨hpriority, hsource, hdestination, hdestinationPort, hsourcePort, hreserved⟩ := S.inRange_iff.1 hrange
  have hflag (t : Bool) : (fromBool t).toNat < 2 ^ 1 := (fromBool t).isLt
  simp only [cspLayout, List.forall_mem_cons, cspValues]
  exact ⟨hpriority, hsource, hdestination, hdestinationPort, hsourcePort, hreserved, hflag _, hflag _, hflag _, hflag _,
    nofun⟩

/-- On in-range inputs every `CSP_MASK_SET` gives the masked packer's word (42_csp.md R164). -/
theorem cspHeaderWord_of_inRange (maskSet : BitVec 6) {S : CspSerIn} (hrange : S.inRange = true) :
    cspHeaderWord maskSet S = packMasked cspLayout 32 (cspValues S) :=
  pack_eq_packMasked_of_inRange _ _ (cspValues_lt_of_inRange hrange)

/-- Settles O56: both builds write the masked word, whose top bit is not covered. -/
theorem cspInRangeSerializeIgnoresTheMaskSet : Obligations.CspInRangeSerializeIgnoresTheMaskSet := by
  intro S s t hrange
  have hs := answers_cspSerialize S s
  have ht := answers_cspSerialize S t
  rw [cspHeaderWord_of_inRange _ hrange] at hs ht
  refine ⟨_, hs, ht, (packMasked cspLayout 32 (cspValues S)).extractLsb' 24 8, ?byte, ?top⟩
  case byte =>
    rw [List.getElem?_append_left (by rw [bytesOf_length]; decide)]
    exact bytesOf_getElem? _ (by decide)
  case top =>
    rw [BitVec.getLsbD_extractLsb', packMasked_getLsbD_of_not_covered 32 _ (by decide), Bool.and_false]

/-- A bit that only masked fields can reach is that of the masked packer. -/
theorem pack_getLsbD_eq_packMasked {ν : Type} (L : Layout ν) (N : Nat) (v : ν → Nat) (m : ν → Bool) {j : Nat}
    (h : ∀ f ∈ L, j < f.lo ∨ m f.name = true) : (pack L N v m).getLsbD j = (packMasked L N v).getLsbD j := by
  rw [packMasked, pack_getLsbD, pack_getLsbD, packOr_testBit, packOr_testBit]
  rw [Bool.eq_iff_iff, Bool.and_eq_true, Bool.and_eq_true, List.any_eq_true, List.any_eq_true]
  refine and_congr_right fun _ => exists_congr fun f => and_congr_right fun hf => ?_
  rcases h f hf with hbelow | hmasked
  · rw [decide_eq_false (Nat.not_le.2 hbelow), Bool.false_and, Bool.false_and]
  · rw [hmasked]

/-- The four flags stand below every field that may be unmasked, so the header word holds them as they are (R157). -/
theorem unpack_cspHeaderWord_of_flag (maskSet : BitVec 6) (S : CspSerIn) (f : FieldDesc CspField)
    (hf : f ∈ cspLayout) (hlow : f.lo + f.width ≤ 4) :
    unpack (cspHeaderWord maskSet S) f = BitVec.ofNat f.width (cspValues S f.name) := by
  have hmasked : ∀ g ∈ cspLayout, 4 ≤ g.lo ∨ cspMasked maskSet g.name = true := by simp [cspLayout, cspMasked]
  rw [← unpack_packMasked cspLayout (cspValues S) cspLayout_wellFormed f hf]
  refine unpack_congr f fun j _ hj => pack_getLsbD_eq_packMasked cspLayout 32 _ _ fun g hg => ?_
  exact (hmasked g hg).imp (by omega) id

/-- A parsed flag is the Boolean whose encoding was packed at its place. -/
theorem toBool_unpack_cspHeaderWord (maskSet : BitVec 6) (S : CspSerIn) (name : CspField) (lo : Nat) (t : Bool)
    (hf : ⟨name, lo, 1⟩ ∈ cspLayout) (hlow : lo + 1 ≤ 4) (hvalue : cspValues S name = (fromBool t).toNat) :
    toBool (unpack (cspHeaderWord maskSet S) ⟨name, lo, 1⟩) = t := by
  rw [unpack_cspHeaderWord_of_flag maskSet S ⟨name, lo, 1⟩ hf hlow, hvalue, ofNat_toNat_same, toBool_fromBool]

/-- With in-range inputs the header word holds every numeric input as it is (42_csp.md R162). -/
theorem unpack_cspHeaderWord_of_inRange (maskSet : BitVec 6) {S : CspSerIn} (hrange : S.inRange = true)
    (f : FieldDesc CspField) (hf : f ∈ cspLayout) :
    (unpack (cspHeaderWord maskSet S) f).toNat = cspValues S f.name := by
  rw [cspHeaderWord_of_inRange maskSet hrange, unpack_packMasked cspLayout _ cspLayout_wellFormed f hf,
    BitVec.toNat_ofNat, Nat.mod_eq_of_lt (cspValues_lt_of_inRange hrange f hf)]

/-- The parse of header bytes and a payload, by the payload's length (42_csp.md R162). -/
theorem cspParse_serialized (W : BitVec 32) (payload : Bytes) :
    (65531 < payload.length ∧ cspParse (bytesOf 4 W ++ payload) = raise .tooLong) ∨
    (payload.length ≤ 65531 ∧ cspParse (bytesOf 4 W ++ payload) = succeed (.cspPacket (cspPacketOf W payload))) := by
  have hread : memRead (bytesOf 4 W ++ payload) 0 4 = W := memRead_bytesOf_append 4 W payload
  have hlen : (bytesOf 4 W ++ payload).length = 4 + payload.length := by rw [List.length_append, bytesOf_length]
  have hpayload : (bytesOf 4 W ++ payload).drop 4 = payload := List.drop_left' (bytesOf_length 4 W)
  have hcases := cspParse_cases (bytesOf 4 W ++ payload)
  rw [hread, hlen, hpayload] at hcases
  rcases hcases with ⟨_, _⟩ | ⟨_, hlong, h⟩ | ⟨_, hmax, h⟩
  · omega
  · exact .inl ⟨by omega, h⟩
  · exact .inr ⟨by omega, h⟩

/-- Settles O58: the record is that of the header word written, whose flags, and in-range inputs, are their inputs. -/
theorem cspSerializeThenParse : Obligations.CspSerializeThenParse := by
  intro S s t
  refine ⟨_, _, answers_cspSerialize S s, answers_operation _ t, ?long, ?fits⟩
  all_goals
    intro hlen
    rcases cspParse_serialized (cspHeaderWord s.cspMaskSet S) S.data with ⟨hlong, h⟩ | ⟨hmax, h⟩
  · exact h
  · omega
  · omega
  · have hflag := toBool_unpack_cspHeaderWord s.cspMaskSet S
    refine ⟨_, h, rfl, rfl, rfl, rfl, rfl, rfl, ?hmac, ?xtea, ?rdp, ?crc, rfl, fun hrange => ?inRange⟩
    case hmac => exact hflag _ _ S.hmac (by decide) (by decide) rfl
    case xtea => exact hflag _ _ S.xtea (by decide) (by decide) rfl
    case rdp => exact hflag _ _ S.rdp (by decide) (by decide) rfl
    case crc => exact hflag _ _ S.crc (by decide) (by decide) rfl
    case inRange =>
      have hfield := unpack_cspHeaderWord_of_inRange s.cspMaskSet hrange
      exact ⟨hfield CspDesc.priority (by decide), hfield CspDesc.source (by decide),
        hfield CspDesc.destination (by decide), hfield CspDesc.destinationPort (by decide),
        hfield CspDesc.sourcePort (by decide), hfield CspDesc.reserved (by decide)⟩

/-- What an answer with a record says of the buffer (42_csp.md R151, R155). -/
theorem of_answers_cspPacket {B : Bytes} {P : CspPacket} {s : State}
    (hanswer : Answers (.cspParse ⟨B⟩) s ⟨.ok, .cspPacket P⟩) :
    4 ≤ B.length ∧ B.length ≤ 65535 ∧ P = cspPacketOf (memRead B 0 4) (B.drop 4) := by
  have h : cspParse B = ⟨.ok, .cspPacket P⟩ := (answers_iff _ _ _).1 hanswer
  rcases cspParse_cases B with ⟨_, h'⟩ | ⟨_, _, h'⟩ | ⟨hmin, hmax, h'⟩
  all_goals rw [h'] at h; cases h
  exact ⟨hmin, hmax, rfl⟩

/-- The embedded record of a header gives each field its own value back (10_state.md R38). -/
theorem cspValues_embedCsp (W : BitVec 32) (payload : Bytes) :
    ∀ f ∈ cspLayout, cspValues (embedCsp (cspPacketOf W payload)) f.name = (unpack W f).toNat := by
  simp [cspLayout, cspValues, embedCsp, cspPacketOf, fromBool_toBool]

/-- The fields of a record are as wide as the header's, so an embedded record meets the range duty (R38, R216). -/
theorem embedCsp_inRange (P : CspPacket) : (embedCsp P).inRange = true :=
  (embedCsp P).inRange_iff.2 ⟨P.priority.isLt, P.source.isLt, P.destination.isLt, P.destinationPort.isLt,
    P.sourcePort.isLt, P.reserved.isLt⟩

/-- A byte without its top bit is itself when it is below 0x80. -/
theorem and_0x7F_eq_self_iff (b : Byte) : b &&& 0x7F#8 = b ↔ b.toNat < 0x80 := by
  have hlow : (b &&& 0x7F#8).toNat = b.toNat % 2 ^ 7 := by
    rw [BitVec.toNat_and]
    exact Nat.and_two_pow_sub_one_eq_mod _ 7
  rw [← BitVec.toNat_inj, hlow]
  omega

/-- Settles O59: the header word written is the covered bits of the one read, and a parse does not read
the other bit. -/
theorem cspParseThenSerialize : Obligations.CspParseThenSerialize := by
  intro B P s t u hanswer
  obtain ⟨hmin, _, rfl⟩ := of_answers_cspPacket hanswer
  obtain ⟨b0, b1, b2, b3, payload, rfl⟩ := exists_cspHeader_bytes hmin
  have hheader : bytesOf 4 (cspHeaderWord t.cspMaskSet (embedCsp (cspPacketOf
      (memRead (b0 :: b1 :: b2 :: b3 :: payload) 0 4) payload))) = [b0 &&& 0x7F#8, b1, b2, b3] := by
    rw [cspHeaderWord_of_inRange _ (embedCsp_inRange _), packMasked_of_unpack _ _ cspLayout_wellFormed
      (cspValues_embedCsp _ payload), memRead_cspHeader, cspHeader_and_covered, bytesOf_cspHeader]
  have hout := answers_cspSerialize (embedCsp (cspPacketOf
      (memRead (b0 :: b1 :: b2 :: b3 :: payload) 0 4) payload)) t
  rw [hheader] at hout
  refine ⟨_, b0, hout, rfl, rfl, ?unchanged, ?reparse⟩
  case unchanged => simpa [embedCsp, cspPacketOf] using and_0x7F_eq_self_iff b0
  case reparse =>
    have hlow : (b0 &&& 0x7F#8) &&& 0x7F#8 = b0 &&& 0x7F#8 := by rw [BitVec.and_assoc, BitVec.and_self]
    exact (answers_iff _ _ _).2 ((cspParse_congr_byte0 (b1 :: b2 :: b3 :: payload) hlow).trans
      ((answers_iff _ _ _).1 hanswer))

/-- A field of a record is at most as wide as a serializer's port (00_scope.md R10). -/
theorem toNat_lt_serField {w : Nat} (x : BitVec w) (hw : w ≤ 16) : x.toNat < 2 ^ 16 :=
  x.isLt.trans_le (Nat.pow_le_pow_right (by decide) hw)

/-- An embedded Space Packet record fits the serializer's ports (10_state.md R37). -/
theorem embedSpp_fits (P : SpacePacket) : (embedSpp P).fits = true :=
  (embedSpp P).fits_iff.2 ⟨toNat_lt_serField P.version (by decide), toNat_lt_serField P.secondaryHeaderFlag (by decide),
    toNat_lt_serField P.apid (by decide), toNat_lt_serField P.sequenceCount (by decide),
    toNat_lt_serField P.dataLength (by decide)⟩

/-- An embedded CSP record fits the serializer's ports (10_state.md R38). -/
theorem embedCsp_fits (P : CspPacket) : (embedCsp P).fits = true :=
  (embedCsp P).fits_iff.2 ⟨toNat_lt_serField P.priority (by decide), toNat_lt_serField P.source (by decide),
    toNat_lt_serField P.destination (by decide), toNat_lt_serField P.destinationPort (by decide),
    toNat_lt_serField P.sourcePort (by decide), toNat_lt_serField P.reserved (by decide)⟩

/-- Settles O60: the fields fit by their widths, and the payload by the length of the buffer it was read from. -/
theorem parsedRecordsCanBePresentedAgain : Obligations.ParsedRecordsCanBePresentedAgain := by
  refine ⟨fun B P s hanswer => ?spp, fun B P s hanswer => ⟨?csp, embedCsp_inRange P⟩⟩
  case spp =>
    obtain ⟨_, hmax, _, hP⟩ := of_answers_spacePacket hanswer
    have hlen : (embedSpp P).dataField.length < 2 ^ Config.lenW := by
      have hpayload : (embedSpp P).dataField = B.drop 6 := by rw [hP]; rfl
      rw [hpayload, List.length_drop, Config.lenW]
      omega
    rw [Instr.presentable, Bool.and_eq_true]
    exact ⟨embedSpp_fits P, decide_eq_true hlen⟩
  case csp =>
    obtain ⟨_, hmax, hP⟩ := of_answers_cspPacket hanswer
    have hlen : (embedCsp P).data.length < 2 ^ Config.lenW := by
      have hpayload : (embedCsp P).data = B.drop 4 := by rw [hP]; rfl
      rw [hpayload, List.length_drop, Config.lenW]
      omega
    rw [Instr.presentable, Bool.and_eq_true]
    exact ⟨embedCsp_fits P, decide_eq_true hlen⟩

end Sys2Proof.Machine
